-- ==== Sys2Proof/Word.lean ====
section
/-! DEFINITION. The bit vectors of PARITY_CORE and the three operand widths
(spec/00_scope.md R8, R12, R13; spec/30_encoding.md R42).

Bit 0 is the least significant bit and every bit is 0 or 1 (R12), which is what `BitVec` gives.
Every value of the block is unsigned (R66). -/

namespace Sys2Proof

/-- One wire: the response `p` (R24), the flag wire `pf` (R20), a constant known at elaboration (R70). -/
abbrev Bit := BitVec 1

/-- The operand bus `xbus[31:0]` (R23). -/
abbrev Bus := BitVec 32

/-- The width select `wsel[1:0]` (R23). -/
abbrev Wsel := BitVec 2

/-- A request word of the one format `REQ34` (R42). -/
abbrev RequestWord := BitVec 34

/-- The three operand widths. They are fixed, not a parameter (R8). -/
inductive Width where
  | w8
  | w16
  | w32
  deriving DecidableEq, Repr

/-- The number `W` of operand bits (R8). -/
def Width.bits : Width → Nat
  | .w8 => 8
  | .w16 => 16
  | .w32 => 32

end Sys2Proof
end

