-- ==== Sys2Proof/Config.lean ====
section
/-! DEFINITION. What is fixed when one copy of PARITY_CORE is built: the static configuration `CFG`
and the static knowledge `K` (spec/00_scope.md R10; spec/10_state.md R28; spec/41_dispatcher.md R70).

All values of all fields are legal (R28). The spec leaves every field OPEN (92_eei_decisions.md D11,
D16, D17, D18), so the model takes the whole record as plain data and its claims quantify over it.
There is no opaque constant here: the spec leaves no output value free (93_implementation_defined.md,
"Nothing is `any value` on the output side"). -/

namespace Sys2Proof

/-- `CFG.strategy`: which variant of the computation strategy is built (R10, R94). -/
inductive Strategy where
  | fast
  | portable
  deriving DecidableEq, Repr

/-- The static configuration `CFG` (R10, R28). -/
structure Cfg where
  /-- The variant every `computeW` uses (R94). -/
  strategy   : Strategy
  /-- Whether tiers 1 to 4 are built (R76). -/
  foldEnable : Bool
  /-- Whether tier 4 of the 32-bit dispatcher is built (R81). -/
  shiftTier  : Bool
  deriving DecidableEq, Repr

/-- What the elaboration environment has proved about an 8-bit operand (R70). -/
structure Know8 where
  /-- The parity, if it is known (step 1). -/
  const   : Option Bit
  /-- At most one bit is set (step 2). -/
  onehot0 : Bool
  deriving DecidableEq, Repr

/-- What the elaboration environment has proved about a 16-bit operand (R70). -/
structure Know16 where
  const   : Option Bit
  onehot0 : Bool
  /-- The value is at most 0xFF (step 3). -/
  fits8   : Bool
  /-- What is known of the value handed to `dispatch8`; nothing is inherited (D19). -/
  sub     : Know8
  deriving DecidableEq, Repr

/-- What the elaboration environment has proved about a 32-bit operand (R70). -/
structure Know32 where
  const     : Option Bit
  onehot0   : Bool
  /-- The value is at most 0xFFFF (step 3). -/
  fits16    : Bool
  /-- The low 16 bits are all zero (step 4). -/
  low16zero : Bool
  /-- What is known of the value handed to `dispatch16`; nothing is inherited (D19). -/
  sub       : Know16
  deriving DecidableEq, Repr

/-- The static knowledge `K`, one member per operation (R70). -/
structure Knowledge where
  k32 : Know32
  k16 : Know16
  k8  : Know8
  deriving DecidableEq, Repr

/-- The empty knowledge has `const = none` and every Boolean false, at every level (R70). -/
def Know8.empty : Know8 := { const := none, onehot0 := false }

/-- The empty knowledge about a 16-bit operand (R70). -/
def Know16.empty : Know16 := { const := none, onehot0 := false, fits8 := false, sub := Know8.empty }

/-- The empty knowledge about a 32-bit operand (R70). -/
def Know32.empty : Know32 :=
  { const := none, onehot0 := false, fits16 := false, low16zero := false, sub := Know16.empty }

/-- The empty knowledge `K`, always legal (R10). -/
def Knowledge.empty : Knowledge := { k32 := Know32.empty, k16 := Know16.empty, k8 := Know8.empty }

/-- One built copy of PARITY_CORE: its `CFG` and its `K` (R10, R16, R28). -/
structure Instance where
  cfg : Cfg
  k   : Knowledge
  deriving DecidableEq, Repr

/-- The instance header with every field at its default (R55): PORTABLE, folding on, the shift tier
present, nothing known. -/
def Instance.default : Instance :=
  { cfg := { strategy := .portable, foldEnable := true, shiftTier := true }, k := Knowledge.empty }

end Sys2Proof
end

