-- ==== Sys2Proof/Machine/Flags.lean ====
section
/-! DEFINITION. The reference functions over the bits of a value (spec/00_scope.md R13;
spec/40_operations.md R58). The block has no architectural flag (spec/10_state.md R20): the one
flag-like bit is the internal wire `pf` at the output of `LEAF8` (Machine/ParityTree.lean). -/

namespace Sys2Proof.Machine

/-- The number of ones among the bits `n-1` down to `0` of `v`. -/
def popcountBelow {w : Nat} (v : BitVec w) : Nat → Nat
  | 0 => 0
  | n + 1 => popcountBelow v n + (v.getLsbD n).toNat

/-- `popcount(v)`, the number of bits of `v` that are 1 (R13). -/
def popcount {w : Nat} (v : BitVec w) : Nat := popcountBelow v w

/-- `par(v) = popcount(v) mod 2`, the reference function of the whole spec (R13, R58). -/
def par {w : Nat} (v : BitVec w) : Bit := BitVec.ofNat 1 (popcount v % 2)

/-- `orr(v)`: 1 if `v` is not zero, else 0 (R13). -/
def orr {w : Nat} (v : BitVec w) : Bit := if v = 0#w then 0#1 else 1#1

/-- `v[i]`, the single bit `i` (R13). -/
def bitAt {w : Nat} (v : BitVec w) (i : Nat) : Bit := BitVec.ofBool (v.getLsbD i)

/-- The XOR of the bits `n-1` down to `0` of `v`. -/
def xorBelow {w : Nat} (v : BitVec w) : Nat → Bit
  | 0 => 0#1
  | n + 1 => bitAt v n ^^^ xorBelow v n

/-- The XOR of all bits of `v`, `v[w-1] ^ ... ^ v[0]`: the third form of the parity bit (R58). -/
def xorAll {w : Nat} (v : BitVec w) : Bit := xorBelow v w

end Sys2Proof.Machine
end

