-- ==== Sys2Proof/Machine/Operands.lean ====
section
/-! DEFINITION. The parts of an operand (spec/00_scope.md R13; spec/20_memory.md R32;
spec/40_operations.md R66). The block has one operand form, a value on the bus: no register, no
immediate, no addressing mode (spec/30_encoding.md R47). The width cut is in Decode.lean. -/

namespace Sys2Proof.Machine

/-- `x[7:0]` of a 16-bit value. -/
def low8 (x : BitVec 16) : BitVec 8 := x.extractLsb' 0 8

/-- `x[15:8]` of a 16-bit value. -/
def high8 (x : BitVec 16) : BitVec 8 := x.extractLsb' 8 8

/-- `x[15:0]` of a 32-bit value. -/
def low16 (x : BitVec 32) : BitVec 16 := x.extractLsb' 0 16

/-- `x[31:16]` of a 32-bit value. -/
def high16 (x : BitVec 32) : BitVec 16 := x.extractLsb' 16 16

/-- `(x >> 16)[15:0]`: the logical right shift of tier 4, used as a 16-bit value (R66, R81). -/
def shiftedDown16 (x : BitVec 32) : BitVec 16 := low16 (x >>> 16)

/-- Byte `k` of an operand is `x[8k+7:8k]`; byte 0 is the least significant (R32). -/
def byteOf {w : Nat} (x : BitVec w) (k : Nat) : BitVec 8 := x.extractLsb' (8 * k) 8

/-- `zext_N(v)` (R13). The result wider than one bit, where an environment needs it, is `zext N p`
(R24). -/
def zext {w : Nat} (n : Nat) (v : BitVec w) : BitVec n := v.setWidth n

end Sys2Proof.Machine
end

