-- ==== Sys2Proof/Machine/ParityTree.lean ====
section
/-! DEFINITION. The computation strategy: the folds, the leaf and `computeW` under both variants
(spec/42_parity_tree.md R93 to R104). -/

namespace Sys2Proof.Machine

/-! ## The stages -/

/-- `FOLD32(v) := v[31:16] ^ v[15:0]` (R95). -/
def fold32 (v : BitVec 32) : BitVec 16 := high16 v ^^^ low16 v

/-- `FOLD16(v) := v[15:8] ^ v[7:0]` (R96). -/
def fold16 (v : BitVec 16) : BitVec 8 := high8 v ^^^ low8 v

/-- `LEAF8(b)`, the wire `pf` of the FAST variant, as the XOR R97 writes out. What is inside the stage is
free (R102, U7); only its output is the norm. -/
def leaf8 (b : BitVec 8) : Bit :=
  bitAt b 7 ^^^ bitAt b 6 ^^^ bitAt b 5 ^^^ bitAt b 4 ^^^ bitAt b 3 ^^^ bitAt b 2 ^^^ bitAt b 1 ^^^ bitAt b 0

/-- `FOLD8(b) := b[7:4] ^ b[3:0]` (R104). -/
def fold8 (b : BitVec 8) : BitVec 4 := b.extractLsb' 4 4 ^^^ b.extractLsb' 0 4

/-- `FOLD4(n) := n[3:2] ^ n[1:0]` (R104). -/
def fold4 (n : BitVec 4) : BitVec 2 := n.extractLsb' 2 2 ^^^ n.extractLsb' 0 2

/-- `FOLD2(m) := m[1] ^ m[0]` (R104). -/
def fold2 (m : BitVec 2) : Bit := bitAt m 1 ^^^ bitAt m 0

/-- The canonical 8-bit tree of the PORTABLE variant (R104). -/
def tree8 (b : BitVec 8) : Bit := fold2 (fold4 (fold8 b))

/-- The byte `x[31:24] ^ x[23:16] ^ x[15:8] ^ x[7:0]` of R101. -/
def fourByteXor (x : BitVec 32) : BitVec 8 := byteOf x 3 ^^^ byteOf x 2 ^^^ byteOf x 1 ^^^ byteOf x 0

/-! ## `computeW` -/

/-- `compute8` (R98 under FAST, R104 under PORTABLE). -/
def compute8 (cfg : Cfg) (x : BitVec 8) : Bit :=
  match cfg.strategy with
  | .fast => leaf8 x
  | .portable => tree8 x

/-- `compute16` (R99 under FAST, R104 under PORTABLE). -/
def compute16 (cfg : Cfg) (x : BitVec 16) : Bit :=
  match cfg.strategy with
  | .fast => leaf8 (fold16 x)
  | .portable => tree8 (fold16 x)

/-- `compute32` (R100 under FAST, R104 under PORTABLE). -/
def compute32 (cfg : Cfg) (x : BitVec 32) : Bit :=
  match cfg.strategy with
  | .fast => leaf8 (fold16 (fold32 x))
  | .portable => tree8 (fold16 (fold32 x))

end Sys2Proof.Machine
end

