-- ==== Sys2Proof/Machine/Dispatcher.lean ====
section
/-! DEFINITION. The width dispatcher: tier selection, soundness of the static knowledge, the three
dispatchers and the tier trace (spec/41_dispatcher.md R70 to R91). -/

namespace Sys2Proof.Machine

/-- The five tiers, in FP's numbering (R74). -/
inductive Tier where
  /-- Constant fold (R77). -/
  | t1
  /-- At most one bit set (R78). -/
  | t2
  /-- Narrow delegation (R79, R80). -/
  | t3
  /-- Shift delegation, 32 bits only (R81). -/
  | t4
  /-- Compute (R82). -/
  | t5
  deriving DecidableEq, Repr

/-! ## Tier selection (R75): a function of `CFG` and `K` and of nothing else -/

/-- `select8` (R75, R90). -/
def select8 (cfg : Cfg) (k : Know8) : Tier :=
  if !cfg.foldEnable then .t5
  else if k.const.isSome then .t1
  else if k.onehot0 then .t2
  else .t5

/-- `select16` (R75). -/
def select16 (cfg : Cfg) (k : Know16) : Tier :=
  if !cfg.foldEnable then .t5
  else if k.const.isSome then .t1
  else if k.onehot0 then .t2
  else if k.fits8 then .t3
  else .t5

/-- `select32` (R75). -/
def select32 (cfg : Cfg) (k : Know32) : Tier :=
  if !cfg.foldEnable then .t5
  else if k.const.isSome then .t1
  else if k.onehot0 then .t2
  else if k.fits16 then .t3
  else if cfg.shiftTier && k.low16zero then .t4
  else .t5

/-! ## Soundness (R72) -/

/-- `k.const = some c -> par(x) = c` (R72). -/
def constSound {w : Nat} (const : Option Bit) (x : BitVec w) : Bool :=
  match const with
  | none => true
  | some c => par x == c

/-- `base_sound(k, x)` (R72). -/
def baseSound {w : Nat} (const : Option Bit) (onehot0 : Bool) (x : BitVec w) : Bool :=
  constSound const x && (!onehot0 || decide (popcount x ≤ 1))

/-- `sound8(CFG, k, x)` (R72). -/
def sound8 (_cfg : Cfg) (k : Know8) (x : BitVec 8) : Bool := baseSound k.const k.onehot0 x

/-- `sound16(CFG, k, x)` (R72): the sub-record is consulted only where the delegation is selected. -/
def sound16 (cfg : Cfg) (k : Know16) (x : BitVec 16) : Bool :=
  baseSound k.const k.onehot0 x
    && (!k.fits8 || decide (x.toNat ≤ 0xFF))
    && (!decide (select16 cfg k = .t3) || sound8 cfg k.sub (low8 x))

/-- `sound32(CFG, k, x)` (R72). The clause for `low16zero` does not depend on `CFG.shift_tier`
(90_conflicts.md C7). -/
def sound32 (cfg : Cfg) (k : Know32) (x : BitVec 32) : Bool :=
  baseSound k.const k.onehot0 x
    && (!k.fits16 || decide (x.toNat ≤ 0xFFFF))
    && (!k.low16zero || low16 x == 0#16)
    && (!decide (select32 cfg k = .t3) || sound16 cfg k.sub (low16 x))
    && (!decide (select32 cfg k = .t4) || sound16 cfg k.sub (high16 x))

/-! ## The dispatchers (R83 to R85) -/

/-- The constant of tier 1 (R77). Tier 1 is selected only where `const` is `some c`, so the other case
is never read (`select8_t1`, `select16_t1`, `select32_t1` in Laws/Dispatcher.lean). -/
def knownConst : Option Bit → Bit
  | some c => c
  | none => 0#1

/-- `dispatch8` (R83). Tiers 3 and 4 are never selected at 8 bits (R90). -/
def dispatch8 (cfg : Cfg) (k : Know8) (x : BitVec 8) : Bit :=
  match select8 cfg k with
  | .t1 => knownConst k.const
  | .t2 => orr x
  | .t3 => compute8 cfg x
  | .t4 => compute8 cfg x
  | .t5 => compute8 cfg x

/-- `dispatch16` (R84). Tier 4 is never selected at 16 bits (R90). -/
def dispatch16 (cfg : Cfg) (k : Know16) (x : BitVec 16) : Bit :=
  match select16 cfg k with
  | .t1 => knownConst k.const
  | .t2 => orr x
  | .t3 => dispatch8 cfg k.sub (low8 x)
  | .t4 => compute16 cfg x
  | .t5 => compute16 cfg x

/-- `dispatch32` (R85). -/
def dispatch32 (cfg : Cfg) (k : Know32) (x : BitVec 32) : Bit :=
  match select32 cfg k with
  | .t1 => knownConst k.const
  | .t2 => orr x
  | .t3 => dispatch16 cfg k.sub (low16 x)
  | .t4 => dispatch16 cfg k.sub (shiftedDown16 x)
  | .t5 => compute32 cfg x

/-! ## The tier trace (R89) -/

/-- `trace8` (R89). -/
def trace8 (cfg : Cfg) (k : Know8) : List (Width × Tier) := [(.w8, select8 cfg k)]

/-- `trace16` (R89). -/
def trace16 (cfg : Cfg) (k : Know16) : List (Width × Tier) :=
  (.w16, select16 cfg k) :: (if select16 cfg k = .t3 then trace8 cfg k.sub else [])

/-- `trace32` (R89). -/
def trace32 (cfg : Cfg) (k : Know32) : List (Width × Tier) :=
  (.w32, select32 cfg k) ::
    (if select32 cfg k = .t3 ∨ select32 cfg k = .t4 then trace16 cfg k.sub else [])

end Sys2Proof.Machine
end

