-- ==== Sys2Proof/Syntax.lean ====
section
/-! DEFINITION. What can be asked of PARITY_CORE: the three operations (spec/30_encoding.md R43; the
three rows of spec/opcode_table.json), the request as it stands on the input ports (R23, R42), and one
request written as a line of text (R53). -/

namespace Sys2Proof

/-- A decoded request. One constructor per row of the opcode table; the operand has exactly the
operation's width (R45, R50). -/
inductive Instr where
  /-- Row `PARITY8`, `wsel = 00` (R59). -/
  | parity8 (x : BitVec 8)
  /-- Row `PARITY16`, `wsel = 01` (R60). -/
  | parity16 (x : BitVec 16)
  /-- Row `PARITY32`, `wsel = 10` (R61). -/
  | parity32 (x : BitVec 32)
  deriving DecidableEq, Repr

/-- The operand width of an operation (R43). -/
def Instr.width : Instr → Width
  | .parity8 _ => .w8
  | .parity16 _ => .w16
  | .parity32 _ => .w32

/-- The row's mnemonic, as spec/opcode_table.json writes it. -/
def Instr.mnemonic : Instr → String
  | .parity8 _ => "PARITY8"
  | .parity16 _ => "PARITY16"
  | .parity32 _ => "PARITY32"

/-- The operand as a natural number (R13: every value is unsigned). -/
def Instr.operand : Instr → Nat
  | .parity8 x => x.toNat
  | .parity16 x => x.toNat
  | .parity32 x => x.toNat

/-- One request: the values of the two input ports (R23). -/
structure Request where
  wsel : Wsel
  xbus : Bus
  deriving DecidableEq, Repr

/-- One request as it is written (R53): the operation, the literal, and the response written after
`=>` where there is one. -/
structure Line where
  width    : Width
  literal  : Nat
  expected : Option Bit
  deriving DecidableEq, Repr

end Sys2Proof
end

