-- ==== Sys2Proof/WellFormed.lean ====
section
/-! DEFINITION. The checks of spec/30_encoding.md on what a requester writes or presents.

An instruction carries no check of its own: no operand value is illegal (R51), and the type of each
operand has exactly the operation's width. -/

namespace Sys2Proof

/-- A request names one of the three operations: the code `11` is reserved (R44, R51). -/
def Request.legal (r : Request) : Bool := r.wsel != 3#2

/-- A canonical request has zeros in the ignored bus bits (R45, R46). The reserved code selects no
operand width, so no word that carries it is canonical. -/
def Request.canonical (r : Request) : Bool :=
  if r.wsel = 0#2 then r.xbus.extractLsb' 8 24 == 0#24
  else if r.wsel = 1#2 then r.xbus.extractLsb' 16 16 == 0#16
  else r.legal

/-- The literal of a line fits in `W` bits; one that does not is an error of the text, not a request
(R53). -/
def Line.fits (l : Line) : Bool := decide (l.literal < 2 ^ l.width.bits)

end Sys2Proof
end

