-- ==== Sys2Proof/Decode.lean ====
section
/-! DEFINITION. The decoder, total on 34-bit request words, the encoder, and the opcode map as masks
and matches (spec/30_encoding.md R42 to R50; spec/opcode_table.json). -/

namespace Sys2Proof

/-! ## The request word (R42) -/

/-- The two ports read together as one word, `req = {wsel, xbus}` (R42). -/
def Request.word (r : Request) : RequestWord := r.wsel ++ r.xbus

/-- `req[33:32]`, the width select (R42). -/
def wselOf (w : RequestWord) : Wsel := w.extractLsb' 32 2

/-- `req[31:0]`, the operand bus (R42). -/
def xbusOf (w : RequestWord) : Bus := w.extractLsb' 0 32

/-- The port values of a request word (R42). -/
def Request.ofWord (w : RequestWord) : Request := { wsel := wselOf w, xbus := xbusOf w }

/-! ## The width cut (R45) -/

/-- `x = xbus[7:0]` (R45). -/
def cut8 (xbus : Bus) : BitVec 8 := xbus.extractLsb' 0 8

/-- `x = xbus[15:0]` (R45). -/
def cut16 (xbus : Bus) : BitVec 16 := xbus.extractLsb' 0 16

/-- `x = xbus[31:0]` (R45). -/
def cut32 (xbus : Bus) : BitVec 32 := xbus.extractLsb' 0 32

/-! ## The decoder (R50) -/

/-- Why a request word selects no operation. The reserved width code is the only illegal encoding
(R51). -/
inductive Invalid where
  /-- `wsel = 11` (R44). -/
  | reservedWsel
  deriving DecidableEq, Repr

/-- What the decoder answers (R50). -/
inductive Decoded where
  | op (i : Instr)
  | invalid (why : Invalid)
  deriving DecidableEq, Repr

/-- The decoder, by the width select (R43, R44, R50). -/
def decode (w : RequestWord) : Decoded :=
  match wselOf w with
  | 0#2 => .op (.parity8 (cut8 (xbusOf w)))
  | 1#2 => .op (.parity16 (cut16 (xbusOf w)))
  | 2#2 => .op (.parity32 (cut32 (xbusOf w)))
  | 3#2 => .invalid .reservedWsel

/-! ## The encoder (R46, R50) -/

/-- The code of each width (R43). -/
def wselCode : Width → Wsel
  | .w8 => 0#2
  | .w16 => 1#2
  | .w32 => 2#2

/-- The operand on the bus with zeros above it, `zext_32(x)` (R46). -/
def busOperand : Instr → Bus
  | .parity8 x => x.setWidth 32
  | .parity16 x => x.setWidth 32
  | .parity32 x => x

/-- The canonical request of an operation (R46). -/
def encodeRequest (i : Instr) : Request := { wsel := wselCode i.width, xbus := busOperand i }

/-- The canonical request word, `{wsel(W), zext_32(x)}` (R46, R50). -/
def encode (i : Instr) : RequestWord := (encodeRequest i).word

/-! ## The opcode map as masks and matches (R49) -/

/-- The rows of the opcode map; the fourth is the reserved one (R49). -/
inductive Row where
  | parity8
  | parity16
  | parity32
  | reserved
  deriving DecidableEq, Repr

/-- The four rows in the map's order (R49). -/
def Row.all : List Row := [.parity8, .parity16, .parity32, .reserved]

/-- The column `mask` (R49). -/
def Row.mask : Row → RequestWord
  | .parity8 => 0x300000000#34
  | .parity16 => 0x300000000#34
  | .parity32 => 0x300000000#34
  | .reserved => 0x300000000#34

/-- The column `match` (R49). -/
def Row.bits : Row → RequestWord
  | .parity8 => 0x000000000#34
  | .parity16 => 0x100000000#34
  | .parity32 => 0x200000000#34
  | .reserved => 0x300000000#34

/-- A word selects the row when `req & mask = match` (R49). -/
def Row.selects (r : Row) (w : RequestWord) : Bool := w &&& r.mask == r.bits

/-- The row a decoded word belongs to (R49, R50). -/
def Decoded.row : Decoded → Row
  | .op (.parity8 _) => .parity8
  | .op (.parity16 _) => .parity16
  | .op (.parity32 _) => .parity32
  | .invalid .reservedWsel => .reserved

/-! ## The host's question -/

/-- The 34-bit request word in the low `nbits` bits of `w`: the block has 34 input lines (R42), and a
row's `nbits` rounded up to whole bytes carries no line above them. -/
def tableWord (nbits w : Nat) : RequestWord := BitVec.ofNat 34 (w % 2 ^ nbits)

/-- The instruction the decoder reads from a word numbered as spec/opcode_table.json numbers it. -/
def decodeTableWord (nbits w : Nat) : Option Instr :=
  match decode (tableWord nbits w) with
  | .op i => some i
  | .invalid _ => none

end Sys2Proof
end

