-- ==== Sys2Proof/Machine/State.lean ====
section
/-! DEFINITION. The state of the machine, the reasons a step stops, and the state after reset.

The block itself holds no state: no register, no flag, no program counter, no memory
(spec/10_state.md R17 to R22, R27; spec/20_memory.md R31). What stands here is what the spec does give
a model: the immutable record the instance was built with (R28), the values of the ports (R23, R24), and
the environment's list of requests still to be presented (spec/70_reset_and_hazards.md R132). -/

namespace Sys2Proof.Machine

/-- The block raises no exception, so there is no fault and no constructor (R30, R111). Nothing raises
one: safe. -/
inductive Fault where
  deriving DecidableEq, Repr

/-- Why the rules give a request no response (R113). A refusal is the model's verdict, not an event in
the hardware. -/
inductive Refusal where
  /-- Raised by `step` for `wsel = 11`, whatever else holds (R44, R115). Safe: the spec gives `p` no
  value there, not even an arbitrary one (U1). -/
  | reservedWsel
  /-- Raised by the three meanings when the instance's `K` is not sound for the operand (R73). Safe: the
  spec gives the request no response (U2). -/
  | unsoundKnowledge
  /-- Raised by an arm of `exec` that has no meaning yet; no arm is in that case. Safe. -/
  | notModelled (mnemonic : String)
  deriving DecidableEq, Repr

/-- The machine. -/
structure State where
  /-- `CFG` and `K`, fixed when the block was built; nothing changes them (R28, R29). -/
  inst     : Instance
  /-- Input port `wsel[1:0]` (R23): the width select of the request held on the ports. -/
  wsel     : Wsel
  /-- Input port `xbus[31:0]` (R23): the operand bus of the request held on the ports. -/
  xbus     : Bus
  /-- Output port `p` (R24): the response to the request held on the ports (R131). -/
  p        : Bit
  /-- The environment's requests that are not presented yet, in the order of presentation (R132). -/
  requests : List Request
  deriving DecidableEq, Repr

/-- The machine right after reset. The spec has no reset and no reset value (R29, R124): the instance is
the default one of R55, both input ports carry zeros (the request `parity8 0x00`), `p` is that request's
response, and no request waits. DESIGN CHOICE, notes/assumptions/1.md and 2.md. -/
def State.reset : State :=
  { inst := Instance.default, wsel := 0#2, xbus := 0#32, p := 0#1, requests := [] }

end Sys2Proof.Machine
end

