-- ==== Sys2Proof/Machine/Ops.lean ====
section
/-! DEFINITION. The named operations on the machine: presenting a request at the ports, answering it,
refusing it.

The block has no memory and no register, so there is no operation on either (spec/10_state.md R18;
spec/20_memory.md R31). Nothing enters an exception or returns from one: the block raises none and has no
trap (spec/60_exceptions.md R111, R116, R117). -/

namespace Sys2Proof.Machine

/-- The request held on the input ports (R23, R131). -/
def State.held (s : State) : Request := { wsel := s.wsel, xbus := s.xbus }

/-- The environment drives the input ports with a request (R23, R42). -/
def State.present (r : Request) (s : State) : State := { s with wsel := r.wsel, xbus := r.xbus }

/-- The environment presents its next request (R132). With none left it goes on holding the last one, and
the block, which is combinational, goes on answering it (R125, R130, R131); notes/assumptions/3.md. -/
def State.fetch (s : State) : State :=
  match s.requests with
  | [] => s
  | r :: rest => { s.present r with requests := rest }

/-- `p <- e`, the only write any rule performs (R13). -/
def State.respond (e : Bit) (s : State) : State := { s with p := e }

/-- The answer to a request with a legal width select: the response where the knowledge is sound for the
operand (R59 to R61), and no response where it is not (R73, R113). -/
def answer (sound : Bool) (e : Bit) (s : State) : Host.Outcome State Fault Refusal :=
  if sound then .next (s.respond e) else .refused .unsoundKnowledge

end Sys2Proof.Machine
end

