-- ==== Sys2Proof/Machine/Parity.lean ====
section
/-! DEFINITION. The meanings of the three operations (spec/40_operations.md R59 to R61). Each reads the
request and the instance's immutable record, and writes `p` and nothing else. -/

namespace Sys2Proof.Machine

/-- `PARITY8` (R59): `p <- dispatch8(x)` with the member `k8` (R70). -/
def execParity8 (x : BitVec 8) (s : State) : Host.Outcome State Fault Refusal :=
  answer (sound8 s.inst.cfg s.inst.k.k8 x) (dispatch8 s.inst.cfg s.inst.k.k8 x) s

/-- `PARITY16` (R60): `p <- dispatch16(x)` with the member `k16` (R70). -/
def execParity16 (x : BitVec 16) (s : State) : Host.Outcome State Fault Refusal :=
  answer (sound16 s.inst.cfg s.inst.k.k16 x) (dispatch16 s.inst.cfg s.inst.k.k16 x) s

/-- `PARITY32` (R61): `p <- dispatch32(x)` with the member `k32` (R70). -/
def execParity32 (x : BitVec 32) (s : State) : Host.Outcome State Fault Refusal :=
  answer (sound32 s.inst.cfg s.inst.k.k32 x) (dispatch32 s.inst.cfg s.inst.k.k32 x) s

end Sys2Proof.Machine
end

