-- ==== Sys2Proof/Machine/Dispatch.lean ====
section
/-! DEFINITION. One arm per operation: the meaning of a decoded request. -/

namespace Sys2Proof.Machine

def exec (i : Instr) (s : State) : Host.Outcome State Fault Refusal :=
  match i with
  | .parity8 x => Sys2Proof.Machine.execParity8 x s
  | .parity16 x => Sys2Proof.Machine.execParity16 x s
  | .parity32 x => Sys2Proof.Machine.execParity32 x s

end Sys2Proof.Machine
end

