-- ==== Sys2Proof/Machine/Step.lean ====
section
/-! DEFINITION. One step: one request and its response (spec/00_scope.md R7; spec/10_state.md R30;
spec/70_reset_and_hazards.md R130, R132). -/

namespace Sys2Proof.Machine

/-- One step. The next request is presented and decoded; the width select is looked at first, so a
reserved code is refused as such whatever the instance knows (R115). -/
def step (s : State) : Host.Outcome State Fault Refusal :=
  match decode s.fetch.held.word with
  | .op i => exec i s.fetch
  | .invalid .reservedWsel => .refused .reservedWsel

/-- `s` with the request word in the low `nbits` bits of `w` as the next one to be presented. The block
loads no program: its requests come from outside (R132), and this stands for the environment presenting
one; notes/assumptions/4.md. -/
def State.withFetchWord (s : State) (nbits w : Nat) : State :=
  { s with requests := Request.ofWord (tableWord nbits w) :: s.requests }

end Sys2Proof.Machine
end

