-- ==== Sys2Proof/Machine/Netlist.lean ====
section
/-! DEFINITION. The structure of an instance: the gates that are built for each operation, as an
expression over the lines of the operand bus (spec/41_dispatcher.md R77 to R82, R86;
spec/42_parity_tree.md R104, R108, R109).

A structure is built from `CFG` and `K` alone, before there is an operand (R86, R126). No port shows it
(R135). -/

namespace Sys2Proof.Machine

/-- A network with one output. -/
inductive Net where
  /-- A constant tied to the output (R77). -/
  | tie (b : Bit)
  /-- Line `i` of the operand bus. -/
  | line (i : Nat)
  /-- A two-input XOR gate. -/
  | xor (a b : Net)
  /-- A two-input OR gate (R78). -/
  | or (a b : Net)
  deriving DecidableEq, Repr

/-- The value at the output while `xbus` is held. -/
def Net.eval (xbus : Bus) : Net → Bit
  | .tie b => b
  | .line i => bitAt xbus i
  | .xor a b => a.eval xbus ^^^ b.eval xbus
  | .or a b => a.eval xbus ||| b.eval xbus

/-- The number of two-input gates (R108). -/
def Net.gates : Net → Nat
  | .tie _ => 0
  | .line _ => 0
  | .xor a b => a.gates + b.gates + 1
  | .or a b => a.gates + b.gates + 1

/-- The number of gates on the longest path (R108). -/
def Net.depth : Net → Nat
  | .tie _ => 0
  | .line _ => 0
  | .xor a b => max a.depth b.depth + 1
  | .or a b => max a.depth b.depth + 1

/-- The bus lines that are connected, one entry per connection. -/
def Net.reads : Net → List Nat
  | .tie _ => []
  | .line i => [i]
  | .xor a b => a.reads ++ b.reads
  | .or a b => a.reads ++ b.reads

/-- Built of XOR gates and bus lines only (R109). -/
def Net.isXorTree : Net → Bool
  | .tie _ => false
  | .line _ => true
  | .xor a b => a.isXorTree && b.isXorTree
  | .or _ _ => false

/-! ## Bundles of wires: entry `i` is bit `i` of a value -/

/-- `n` bus lines from line `lo` upward. -/
def busLines (lo n : Nat) : List Net := (List.range n).map fun i => .line (lo + i)

/-- One fold of the tree: the upper half XORed into the lower half (R95, R96, R104). -/
def foldNets (l : List Net) : List Net :=
  List.zipWith .xor (l.drop (l.length / 2)) (l.take (l.length / 2))

/-- Bit 0 of a bundle; the empty bundle has no wire and does not occur. -/
def firstNet (l : List Net) : Net := l.headD (.tie 0#1)

/-- `LEAF8` as the XOR R97 writes out, the most significant bit first; the mechanism is free (U7),
notes/assumptions/5.md. -/
def leafNet (l : List Net) : Net :=
  match l.reverse with
  | [] => .tie 0#1
  | n :: rest => rest.foldl .xor n

/-- `FOLD2(FOLD4(FOLD8(b)))` (R104). -/
def treeNet (l : List Net) : Net := firstNet (foldNets (foldNets (foldNets l)))

/-- The OR of all wires of a bundle (R78). -/
def orNet (l : List Net) : Net :=
  match l with
  | [] => .tie 0#1
  | n :: rest => rest.foldl .or n

/-- The 8-bit stage of a variant (R94). -/
def stageNet (cfg : Cfg) (l : List Net) : Net :=
  match cfg.strategy with
  | .fast => leafNet l
  | .portable => treeNet l

/-! ## The structure of each dispatcher over the wires of its operand -/

/-- The structure of `dispatch8` (R83). -/
def dispatchNet8 (cfg : Cfg) (k : Know8) (l : List Net) : Net :=
  match select8 cfg k with
  | .t1 => .tie (knownConst k.const)
  | .t2 => orNet l
  | .t3 => stageNet cfg l
  | .t4 => stageNet cfg l
  | .t5 => stageNet cfg l

/-- The structure of `dispatch16` (R84). Under tier 3 the upper byte is not connected (R79). -/
def dispatchNet16 (cfg : Cfg) (k : Know16) (l : List Net) : Net :=
  match select16 cfg k with
  | .t1 => .tie (knownConst k.const)
  | .t2 => orNet l
  | .t3 => dispatchNet8 cfg k.sub (l.take 8)
  | .t4 => stageNet cfg (foldNets l)
  | .t5 => stageNet cfg (foldNets l)

/-- The structure of `dispatch32` (R85). Under tier 3 the upper half is not connected (R80), under
tier 4 the lower half (R81). -/
def dispatchNet32 (cfg : Cfg) (k : Know32) (l : List Net) : Net :=
  match select32 cfg k with
  | .t1 => .tie (knownConst k.const)
  | .t2 => orNet l
  | .t3 => dispatchNet16 cfg k.sub (l.take 16)
  | .t4 => dispatchNet16 cfg k.sub (l.drop 16)
  | .t5 => stageNet cfg (foldNets (foldNets l))

/-- What an instance holds for the operation of each width (R126, step 3). -/
def structureFor (inst : Instance) : Width → Net
  | .w8 => dispatchNet8 inst.cfg inst.k.k8 (busLines 0 8)
  | .w16 => dispatchNet16 inst.cfg inst.k.k16 (busLines 0 16)
  | .w32 => dispatchNet32 inst.cfg inst.k.k32 (busLines 0 32)

end Sys2Proof.Machine
end

