-- ==== Sys2Proof/Machine/Text.lean ====
section
/-! DEFINITION. The textual syntax: request lines, the instance header and whole programs
(spec/30_encoding.md R53 to R56). -/

namespace Sys2Proof.Machine

/-- What is wrong with a text. None of these is an outcome of the block: such a text is no request
(R53). -/
inductive TextError where
  /-- The first word of a request line is none of the three mnemonics (R53, R54). -/
  | unknownMnemonic
  /-- The operand is not `0x` and hexadecimal digits. -/
  | badLiteral
  /-- The literal does not fit in `W` bits (R53). -/
  | literalTooWide
  /-- The literal fits but does not have `W/4` digits. -/
  | wrongDigitCount
  /-- What stands after the operand is not `=> 0` or `=> 1`. -/
  | badResponse
  /-- The program does not begin with an instance header (R55). -/
  | missingHeader
  /-- A word of the header is no field of its record, or its value is none of the field's (R55). -/
  | badField
  /-- A block of the header is not closed. -/
  | unclosedBlock
  deriving DecidableEq, Repr

/-! ## Words -/

/-- The character that opens a block of the header, U+007B. -/
def openChar : Char := Char.ofNat 0x7B

/-- The character that closes a block of the header, U+007D. -/
def closeChar : Char := Char.ofNat 0x7D

/-- A comment runs from `;` to the end of the line (R53). -/
def dropComment (l : List Char) : List Char := l.takeWhile (· ≠ ';')

/-- White space between words. -/
def isSpace (c : Char) : Bool := c = ' ' || c = '\t' || c = '\r'

/-- Ends a word: a word in progress is kept reversed. -/
def endWord (acc : List Char) (rest : List (List Char)) : List (List Char) :=
  match acc with
  | [] => rest
  | _ => acc.reverse :: rest

/-- Words are separated by white space; an opening or closing character is a word of its own. -/
def wordsFrom (acc : List Char) : List Char → List (List Char)
  | [] => endWord acc []
  | c :: cs =>
    if isSpace c then endWord acc (wordsFrom [] cs)
    else if c = openChar ∨ c = closeChar then endWord acc ([c] :: wordsFrom [] cs)
    else wordsFrom (c :: acc) cs

/-- The words of a line, its comment left out. -/
def lineWords (l : List Char) : List (List Char) := wordsFrom [] (dropComment l)

/-- The lines of a text. -/
def linesFrom (acc : List Char) : List Char → List (List Char)
  | [] => [acc.reverse]
  | c :: cs => if c = '\n' then acc.reverse :: linesFrom [] cs else linesFrom (c :: acc) cs

/-! ## Hexadecimal literals -/

/-- The sixteen digits in the order of their values: R53 writes an operand in these. -/
def hexAlphabet : List Char := "0123456789ABCDEF".toList

/-- The value of a digit is its place among the sixteen, whichever case it is written in (R53;
notes/assumptions/6.md). -/
def hexDigit? (c : Char) : Option Nat := hexAlphabet.findIdx? (· == c.toUpper)

/-- The value of hexadecimal digits, the most significant first, added below `acc`. -/
def hexValue? (acc : Nat) : List Char → Option Nat
  | [] => some acc
  | c :: cs =>
    match hexDigit? c with
    | some d => hexValue? (16 * acc + d) cs
    | none => none

/-- The digit of a value below 16 (R53). -/
def hexChar (d : Nat) : Char := hexAlphabet.getD d '0'

/-- The low `n` hexadecimal digits of a value, the most significant first. -/
def hexDigits : Nat → Nat → List Char
  | 0, _ => []
  | n + 1, v => hexDigits n (v / 16) ++ [hexChar (v % 16)]

/-! ## Request lines (R53) -/

/-- The mnemonics, lower case (R53). -/
def mnemonicChars : Width → List Char
  | .w8 => ['p', 'a', 'r', 'i', 't', 'y', '8']
  | .w16 => ['p', 'a', 'r', 'i', 't', 'y', '1', '6']
  | .w32 => ['p', 'a', 'r', 'i', 't', 'y', '3', '2']

/-- The operation a word names; upper and lower case are the same (R53). -/
def mnemonic? (word : List Char) : Option Width :=
  let lower := word.map Char.toLower
  if lower = mnemonicChars .w8 then some .w8
  else if lower = mnemonicChars .w16 then some .w16
  else if lower = mnemonicChars .w32 then some .w32
  else none

/-- The digits of a literal `0x…`; there is at least one. -/
def literalDigits? : List Char → Option (List Char)
  | '0' :: 'x' :: d :: ds => some (d :: ds)
  | _ => none

/-- The operand of a request line: `W/4` hexadecimal digits (R53; notes/assumptions/6.md). -/
def parseOperand (w : Width) (word : List Char) : Except TextError Nat :=
  match literalDigits? word with
  | none => .error .badLiteral
  | some ds =>
    match hexValue? 0 ds with
    | none => .error .badLiteral
    | some v =>
      if 2 ^ w.bits ≤ v then .error .literalTooWide
      else if ds.length ≠ w.bits / 4 then .error .wrongDigitCount
      else .ok v

/-- The response written after `=>` (R53). -/
def parseExpected : List (List Char) → Except TextError (Option Bit)
  | [] => .ok none
  | [['=', '>'], ['0']] => .ok (some 0#1)
  | [['=', '>'], ['1']] => .ok (some 1#1)
  | _ => .error .badResponse

/-- A request line from its words (R53). -/
def parseWords : List (List Char) → Except TextError Line
  | m :: lit :: rest =>
    match mnemonic? m with
    | none => .error .unknownMnemonic
    | some w =>
      match parseOperand w lit, parseExpected rest with
      | .ok v, .ok e => .ok { width := w, literal := v, expected := e }
      | .error e, _ => .error e
      | .ok _, .error e => .error e
  | [m] => if (mnemonic? m).isSome then .error .badLiteral else .error .unknownMnemonic
  | [] => .error .unknownMnemonic

/-- A request line (R53). -/
def parseLine (l : List Char) : Except TextError Line := parseWords (lineWords l)

/-- The operation a line stands for (R53). -/
def lineInstr (l : Line) : Instr :=
  match l.width with
  | .w8 => .parity8 (BitVec.ofNat 8 l.literal)
  | .w16 => .parity16 (BitVec.ofNat 16 l.literal)
  | .w32 => .parity32 (BitVec.ofNat 32 l.literal)

/-- A line whose literal fits assembles to the canonical request; one whose literal does not fit is an
error of the text (R46, R53). -/
def assemble (l : Line) : Except TextError Request :=
  if l.fits then .ok (encodeRequest (lineInstr l)) else .error .literalTooWide

/-- The text of an operation (R53). -/
def printInstr (i : Instr) : List Char :=
  mnemonicChars i.width ++ [' ', '0', 'x'] ++ hexDigits (i.width.bits / 4) i.operand

/-! ## The instance header (R55) -/

/-- `true` or `false`. -/
def parseBool? (v : List Char) : Option Bool :=
  if v = "true".toList then some true
  else if v = "false".toList then some false
  else none

/-- A word `key=value` cut at its first `=`. -/
def keyValue (word : List Char) : List Char × List Char :=
  (word.takeWhile (· ≠ '='), (word.dropWhile (· ≠ '=')).drop 1)

/-- The value of `const`: `none`, or `some` and then the word `0` or `1` (R55). -/
def parseConst (v : List Char) (rest : List (List Char)) :
    Except TextError (Option Bit × List (List Char)) :=
  if v = "none".toList then .ok (none, rest)
  else if v = "some".toList then
    match rest with
    | ['0'] :: r => .ok (some 0#1, r)
    | ['1'] :: r => .ok (some 1#1, r)
    | _ => .error .badField
  else .error .badField

/-- The fields of `k8` after its opening character, up to its closing one (R55, R70), in any order (DESIGN
CHOICE: notes/assumptions/6.md). `fuel` bounds the number of words. -/
def parseKnow8 (fuel : Nat) (k : Know8) (ws : List (List Char)) :
    Except TextError (Know8 × List (List Char)) :=
  match fuel, ws with
  | 0, _ => .error .unclosedBlock
  | _, [] => .error .unclosedBlock
  | n + 1, w :: rest =>
    if w = [closeChar] then .ok (k, rest)
    else if (keyValue w).1 = "const".toList then
      match parseConst (keyValue w).2 rest with
      | .ok (c, r) => parseKnow8 n { k with const := c } r
      | .error e => .error e
    else if (keyValue w).1 = "onehot0".toList then
      match parseBool? (keyValue w).2 with
      | some b => parseKnow8 n { k with onehot0 := b } rest
      | none => .error .badField
    else .error .badField

/-- The words after the word `sub`: an opening character. -/
def afterOpen : List (List Char) → Except TextError (List (List Char))
  | [c] :: rest => if c = openChar then .ok rest else .error .badField
  | _ => .error .badField

/-- The fields of `k16` and its `sub` (R55, R70), in any order (DESIGN CHOICE: notes/assumptions/6.md). -/
def parseKnow16 (fuel : Nat) (k : Know16) (ws : List (List Char)) :
    Except TextError (Know16 × List (List Char)) :=
  match fuel, ws with
  | 0, _ => .error .unclosedBlock
  | _, [] => .error .unclosedBlock
  | n + 1, w :: rest =>
    if w = [closeChar] then .ok (k, rest)
    else if w = "sub".toList then
      match (afterOpen rest).bind (parseKnow8 n Know8.empty) with
      | .ok (s, r) => parseKnow16 n { k with sub := s } r
      | .error e => .error e
    else if (keyValue w).1 = "const".toList then
      match parseConst (keyValue w).2 rest with
      | .ok (c, r) => parseKnow16 n { k with const := c } r
      | .error e => .error e
    else
      match parseBool? (keyValue w).2 with
      | none => .error .badField
      | some b =>
        if (keyValue w).1 = "onehot0".toList then parseKnow16 n { k with onehot0 := b } rest
        else if (keyValue w).1 = "fits8".toList then parseKnow16 n { k with fits8 := b } rest
        else .error .badField

/-- The fields of `k32` and its `sub` (R55, R70), in any order (DESIGN CHOICE: notes/assumptions/6.md). -/
def parseKnow32 (fuel : Nat) (k : Know32) (ws : List (List Char)) :
    Except TextError (Know32 × List (List Char)) :=
  match fuel, ws with
  | 0, _ => .error .unclosedBlock
  | _, [] => .error .unclosedBlock
  | n + 1, w :: rest =>
    if w = [closeChar] then .ok (k, rest)
    else if w = "sub".toList then
      match (afterOpen rest).bind (parseKnow16 n Know16.empty) with
      | .ok (s, r) => parseKnow32 n { k with sub := s } r
      | .error e => .error e
    else if (keyValue w).1 = "const".toList then
      match parseConst (keyValue w).2 rest with
      | .ok (c, r) => parseKnow32 n { k with const := c } r
      | .error e => .error e
    else
      match parseBool? (keyValue w).2 with
      | none => .error .badField
      | some b =>
        if (keyValue w).1 = "onehot0".toList then parseKnow32 n { k with onehot0 := b } rest
        else if (keyValue w).1 = "fits16".toList then parseKnow32 n { k with fits16 := b } rest
        else if (keyValue w).1 = "low16zero".toList then parseKnow32 n { k with low16zero := b } rest
        else .error .badField

/-- A field of `CFG` (R55). -/
def parseCfgField (w : List Char) (c : Cfg) : Except TextError Cfg :=
  if (keyValue w).1 = "strategy".toList then
    if (keyValue w).2 = "PORTABLE".toList then .ok { c with strategy := .portable }
    else if (keyValue w).2 = "FAST".toList then .ok { c with strategy := .fast }
    else .error .badField
  else
    match parseBool? (keyValue w).2 with
    | none => .error .badField
    | some b =>
      if (keyValue w).1 = "fold_enable".toList then .ok { c with foldEnable := b }
      else if (keyValue w).1 = "shift_tier".toList then .ok { c with shiftTier := b }
      else .error .badField

/-- The fields and blocks of a header after the word that begins it; one left out keeps its default (R55).
R55 shows one order and does not say whether another is allowed: any order is accepted, and of a block written
twice the last one holds (DESIGN CHOICE: notes/assumptions/6.md). -/
def parseFields (fuel : Nat) (i : Instance) (ws : List (List Char)) : Except TextError Instance :=
  match fuel, ws with
  | _, [] => .ok i
  | 0, _ => .error .badField
  | n + 1, w :: rest =>
    if w = "k8".toList then
      match (afterOpen rest).bind (parseKnow8 n Know8.empty) with
      | .ok (s, r) => parseFields n { i with k := { i.k with k8 := s } } r
      | .error e => .error e
    else if w = "k16".toList then
      match (afterOpen rest).bind (parseKnow16 n Know16.empty) with
      | .ok (s, r) => parseFields n { i with k := { i.k with k16 := s } } r
      | .error e => .error e
    else if w = "k32".toList then
      match (afterOpen rest).bind (parseKnow32 n Know32.empty) with
      | .ok (s, r) => parseFields n { i with k := { i.k with k32 := s } } r
      | .error e => .error e
    else
      match parseCfgField w i.cfg with
      | .ok c => parseFields n { i with cfg := c } rest
      | .error e => .error e

/-- An instance header from its words (R55). -/
def parseHeader : List (List Char) → Except TextError Instance
  | [] => .error .missingHeader
  | w :: rest =>
    if w = "instance".toList then parseFields (rest.length + 1) Instance.default rest
    else .error .missingHeader

/-! ## Programs (R132: a finite list of requests for one instance) -/

/-- The request lines of a program, each assembled; a line without words is passed over. -/
def parseRequests : List (List (List Char)) → Except TextError (List Request)
  | [] => .ok []
  | [] :: rest => parseRequests rest
  | ws :: rest =>
    match (parseWords ws).bind assemble, parseRequests rest with
    | .ok r, .ok rs => .ok (r :: rs)
    | .error e, _ => .error e
    | .ok _, .error e => .error e

/-- Whether a line is a request line: its first word is a mnemonic. The header runs up to the first of
these (R55). -/
def isRequestLine : List (List Char) → Bool
  | [] => false
  | w :: _ => (mnemonic? w).isSome

/-- A program: the header, then the requests the instance receives, one a line (R53, R55, R132). -/
def parseProgram (text : List Char) : Except TextError (Instance × List Request) :=
  let ls := (linesFrom [] text).map lineWords
  let header := (ls.takeWhile fun l => !isRequestLine l).flatten
  match parseHeader header, parseRequests (ls.dropWhile fun l => !isRequestLine l) with
  | .ok i, .ok rs => .ok (i, rs)
  | .error e, _ => .error e
  | .ok _, .error e => .error e

end Sys2Proof.Machine
end

