-- ==== Sys2Proof/Machine/Run.lean ====
section
/-! DEFINITION. The spec's own step, without a state, and the run of a list of requests
(spec/10_state.md R30; spec/60_exceptions.md R113; spec/70_reset_and_hazards.md R132). -/

namespace Sys2Proof.Machine

/-- `Outcome := response (p : bit) | refused (reason)` (R30). -/
inductive PortOutcome where
  | response (p : Bit)
  | refused (why : Refusal)
  deriving DecidableEq, Repr

/-- Whether an outcome is a response. -/
def PortOutcome.isResponse : PortOutcome → Bool
  | .response _ => true
  | .refused _ => false

/-- The instance's knowledge is sound for the operation's operand; each operation uses its own member of
`K` (R70, R72). -/
def soundFor (inst : Instance) : Instr → Bool
  | .parity8 x => sound8 inst.cfg inst.k.k8 x
  | .parity16 x => sound16 inst.cfg inst.k.k16 x
  | .parity32 x => sound32 inst.cfg inst.k.k32 x

/-- What the instance's dispatcher of the operation's width returns (R59 to R61). -/
def dispatchFor (inst : Instance) : Instr → Bit
  | .parity8 x => dispatch8 inst.cfg inst.k.k8 x
  | .parity16 x => dispatch16 inst.cfg inst.k.k16 x
  | .parity32 x => dispatch32 inst.cfg inst.k.k32 x

/-- What an instance answers to a decoded request: its dispatcher's bit, or the refusal of R73. -/
def respondTo (inst : Instance) (i : Instr) : PortOutcome :=
  if soundFor inst i then .response (dispatchFor inst i) else .refused .unsoundKnowledge

/-- `step : Config -> Request -> Outcome`, the pure function of R30. It takes no state and returns
none. -/
def portStep (inst : Instance) (r : Request) : PortOutcome :=
  match decode r.word with
  | .op i => respondTo inst i
  | .invalid .reservedWsel => .refused .reservedWsel

/-- The outcomes of `n` steps of the machine. A refused request changes nothing and the run goes on with
the next one (R113). -/
def State.outcomes : Nat → State → List PortOutcome
  | 0, _ => []
  | n + 1, s =>
    match step s with
    | .next t => .response t.p :: State.outcomes n t
    | .refused why => .refused why :: State.outcomes n s.fetch
    | .fault f => nomatch f

/-- The run of the requests that wait in `s`: their outcomes in the same order. It ends when the list is
exhausted (R132). -/
def State.run (s : State) : List PortOutcome := s.outcomes s.requests.length

/-- The mark that a run contained a refusal (R113). -/
def containsRefusal (outs : List PortOutcome) : Bool := outs.any fun o => !o.isResponse

end Sys2Proof.Machine
end

