-- ==== Sys2Proof/Safety.lean ====
section
/-! DEFINITION. The terms claims are stated in: the parity of an operation's operand, admission, the launch premise of a run, and the agreement of the output port with the request held on the
input ports. -/

namespace Sys2Proof.Machine

/-- `par(x)` of the operand of an operation: the contract's response (R58). -/
def parityOf : Instr → Bit
  | .parity8 x => par x
  | .parity16 x => par x
  | .parity32 x => par x

/-- The rules give the request a response on this instance (R16 "Admit"). -/
def admits (inst : Instance) (r : Request) : Bool :=
  match decode r.word with
  | .op i => soundFor inst i
  | .invalid _ => false

/-- The launch premise of a run (R127): every request is admitted. -/
def launchPremise (inst : Instance) (rs : List Request) : Bool := rs.all (admits inst)

/-- The response belongs to the request (R131): where the held request is admitted, `p` is the parity of
its operand. -/
def portsAgree (s : State) : Bool :=
  match decode s.held.word with
  | .op i => !soundFor s.inst i || s.p == parityOf i
  | .invalid _ => true

end Sys2Proof.Machine
end

