-- ==== Sys2Proof/Certificates/Slice0/Obligations.lean ====
section
/-! DEFINITION. The statements for the provers. Each one's docstring names the rule of spec/ it is about;
the wording a reader should hold it against is in OBLIGATIONS.json. -/

open Sys2Proof Sys2Proof.Machine

/-! ## Reset, the step and the decoder -/

/-- After reset the instance is the default one of R55, the word 0 stands on the input ports and 0 on `p`, and
one step with no request waiting answers the request that stands on the ports and changes nothing. The values
of the three ports and the step without a waiting request are the model's choices:
notes/assumptions/1.md, 2.md, 3.md. -/
def Obligations.ResetAnswersZeroOnTheDefaultInstance : Prop :=
  State.reset.inst.cfg = { strategy := .portable, foldEnable := true, shiftTier := true } ∧
  State.reset.inst.k.k8 = { const := none, onehot0 := false } ∧
  State.reset.inst.k.k16 =
    { const := none, onehot0 := false, fits8 := false, sub := State.reset.inst.k.k8 } ∧
  State.reset.inst.k.k32 =
    { const := none, onehot0 := false, fits16 := false, low16zero := false,
      sub := State.reset.inst.k.k16 } ∧
  State.reset.held.word = 0#34 ∧ State.reset.p = 0#1 ∧ State.reset.requests = [] ∧
  step State.reset = .next State.reset

/-- 95_test_vectors.md Part 4.1 and 4.2: words written out from the map of R49 decode to the operations they
stand for, ignored bits or not. -/
def Obligations.WordsOfTheOpcodeMapDecode : Prop :=
  decode 0x000000081#34 = .op (.parity8 0x81#8) ∧
  decode 0x100008000#34 = .op (.parity16 0x8000#16) ∧
  decode 0x2FFFFFFFF#34 = .op (.parity32 0xFFFFFFFF#32) ∧
  decode 0x0FFFFFF81#34 = .op (.parity8 0x81#8) ∧
  decode 0x1BEEFAAAA#34 = .op (.parity16 0xAAAA#16) ∧
  decode 0x3DEADBEEF#34 = .invalid .reservedWsel

/-- R43: the codes, the widths and the equation `W = 8 * 2^wsel`. -/
def Obligations.WidthSelectCodes : Prop :=
  (∀ x, wselOf (encode (.parity8 x)) = 0b00#2) ∧ (∀ x, wselOf (encode (.parity16 x)) = 0b01#2) ∧
  (∀ x, wselOf (encode (.parity32 x)) = 0b10#2) ∧
  (∀ w, wselOf w = 0b11#2 ↔ decode w = .invalid .reservedWsel) ∧
  (∀ i, i.width.bits = 8 * 2 ^ (wselOf (encode i)).toNat)

/-- R49: every word selects exactly one of the four rows by mask and match, and decodes to that row's
operation with the pattern's operand bits. -/
def Obligations.OpcodeMapRowsAreDisjointAndCover : Prop :=
  ∀ w : RequestWord,
    (∃! r : Row, w &&& r.mask = r.bits) ∧
    (w &&& 0x300000000#34 = 0x000000000#34 ↔ decode w = .op (.parity8 (w.extractLsb' 0 8))) ∧
    (w &&& 0x300000000#34 = 0x100000000#34 ↔ decode w = .op (.parity16 (w.extractLsb' 0 16))) ∧
    (w &&& 0x300000000#34 = 0x200000000#34 ↔ decode w = .op (.parity32 (w.extractLsb' 0 32))) ∧
    (w &&& 0x300000000#34 = 0x300000000#34 ↔ decode w = .invalid .reservedWsel)

/-- R50: the decoder by `req[33:32]`, the encoder, and both round trips. -/
def Obligations.DecodeAndEncodeAgree : Prop :=
  (∀ w : RequestWord,
    (w.extractLsb' 32 2 = 0b00#2 → decode w = .op (.parity8 (w.extractLsb' 0 8))) ∧
    (w.extractLsb' 32 2 = 0b01#2 → decode w = .op (.parity16 (w.extractLsb' 0 16))) ∧
    (w.extractLsb' 32 2 = 0b10#2 → decode w = .op (.parity32 (w.extractLsb' 0 32))) ∧
    (w.extractLsb' 32 2 = 0b11#2 → decode w = .invalid .reservedWsel)) ∧
  (∀ x : BitVec 8, encode (.parity8 x) = 0b00#2 ++ zext 32 x) ∧
  (∀ x : BitVec 16, encode (.parity16 x) = 0b01#2 ++ zext 32 x) ∧
  (∀ x : BitVec 32, encode (.parity32 x) = 0b10#2 ++ x) ∧
  (∀ i, decode (encode i) = .op i) ∧
  (∀ w i, decode w = .op i →
    (encode i = w ↔ (Request.ofWord w).canonical = true) ∧
    (Request.ofWord (encode i)).canonical = true ∧ decode (encode i) = decode w)

/-- R45, R46: two requests with the same width select and the same operand bits get the same outcome,
whatever the bus bits above the operand are. -/
def Obligations.IgnoredBusBitsDoNotMatter : Prop :=
  ∀ (inst : Instance) (c : Wsel) (b b' : Bus),
    (c = 0b00#2 → cut8 b = cut8 b' →
      portStep inst { wsel := c, xbus := b } = portStep inst { wsel := c, xbus := b' }) ∧
    (c = 0b01#2 → cut16 b = cut16 b' →
      portStep inst { wsel := c, xbus := b } = portStep inst { wsel := c, xbus := b' }) ∧
    (∀ x : BitVec 8, portStep inst { wsel := 0b00#2, xbus := (b.extractLsb' 8 24 ++ x) } =
      portStep inst (encodeRequest (.parity8 x))) ∧
    (∀ x : BitVec 16, portStep inst { wsel := 0b01#2, xbus := (b.extractLsb' 16 16 ++ x) } =
      portStep inst (encodeRequest (.parity16 x)))

/-- Where the request presented next decodes to `i`, the step is the meaning of `i` in the state in which
that request is held; and the presented request is the first waiting one, or the held one where none
waits (the model's choice: notes/assumptions/3.md). -/
def Obligations.StepRunsTheDecodedRequest : Prop :=
  (∀ (s : State) (i : Instr), decode s.fetch.held.word = .op i → step s = exec i s.fetch) ∧
  (∀ (s : State) (r : Request) (rest : List Request), s.requests = r :: rest →
    s.fetch = { s with wsel := r.wsel, xbus := r.xbus, requests := rest }) ∧
  (∀ s : State, s.requests = [] → s.fetch = s)

/-- A word numbered as spec/opcode_table.json numbers it, presented next, runs the operation the decoder
reads from it, in the state in which that word is on the ports and the requests behind it are untouched
(presenting a word is the model's own operation: notes/assumptions/4.md, 7.md). -/
def Obligations.PresentedTableWordRunsItsOperation : Prop :=
  ∀ (s : State) (nbits w : Nat) (i : Instr), decodeTableWord nbits w = some i →
    step (s.withFetchWord nbits w) =
      exec i { s with wsel := wselOf (tableWord nbits w), xbus := xbusOf (tableWord nbits w) }

/-! ## The three operations -/

/-- R59: on every state and operand for which `K.k8` is sound, `PARITY8` completes, writes the parity of
its operand to `p` and changes nothing else. -/
def Obligations.Parity8RespondsWithParity : Prop :=
  ∀ (s : State) (x : BitVec 8), sound8 s.inst.cfg s.inst.k.k8 x = true →
    exec (.parity8 x) s = .next { s with p := BitVec.ofNat 1 (popcount x % 2) }

/-- R60: the same for `PARITY16` and `K.k16`. -/
def Obligations.Parity16RespondsWithParity : Prop :=
  ∀ (s : State) (x : BitVec 16), sound16 s.inst.cfg s.inst.k.k16 x = true →
    exec (.parity16 x) s = .next { s with p := BitVec.ofNat 1 (popcount x % 2) }

/-- R61: the same for `PARITY32` and `K.k32`. -/
def Obligations.Parity32RespondsWithParity : Prop :=
  ∀ (s : State) (x : BitVec 32), sound32 s.inst.cfg s.inst.k.k32 x = true →
    exec (.parity32 x) s = .next { s with p := BitVec.ofNat 1 (popcount x % 2) }

/-- The frame of `PARITY8`, `PARITY16` and `PARITY32`: when one of them completes, only `p` may have
changed (R59 to R61 "Writes: `p` only"). -/
def Obligations.OperationsWriteOnlyTheResponse : Prop :=
  ∀ (i : Instr) (s t : State), exec i s = .next t →
    t.inst = s.inst ∧ t.wsel = s.wsel ∧ t.xbus = s.xbus ∧ t.requests = s.requests

/-- R73: a request whose operand the instance's knowledge is not sound for is refused, on the bare step of
R30 and on the machine's. -/
def Obligations.UnsoundKnowledgeIsRefused : Prop :=
  ∀ (s : State) (r : Request) (i : Instr), decode r.word = .op i → soundFor s.inst i = false →
    portStep s.inst r = .refused .unsoundKnowledge ∧
    (s.fetch.held = r → step s = .refused .unsoundKnowledge) ∧
    exec i s = .refused .unsoundKnowledge

/-- R44: the reserved code is refused for every bus value, on every instance. -/
def Obligations.ReservedCodeIsRefused : Prop :=
  (∀ (inst : Instance) (xbus : Bus),
    portStep inst { wsel := 0b11#2, xbus := xbus } = .refused .reservedWsel) ∧
  (∀ s : State, s.fetch.held.wsel = 0b11#2 → step s = .refused .reservedWsel)

/-- R113, R115: a step completes exactly where the width select is legal and the knowledge sound, and the
two refusals are told apart by the width select. -/
def Obligations.RefusalReasonsAreExactlyTwo : Prop :=
  ∀ s : State,
    ((∃ t, step s = .next t) ↔ admits s.inst s.fetch.held = true) ∧
    (step s = .refused .reservedWsel ↔ s.fetch.held.wsel = 0b11#2) ∧
    (step s = .refused .unsoundKnowledge ↔
      s.fetch.held.wsel ≠ 0b11#2 ∧ admits s.inst s.fetch.held = false) ∧
    (∀ why, step s = .refused why → why = .reservedWsel ∨ why = .unsoundKnowledge)

/-- R113, last sentence: with the empty knowledge and a legal width select no request is refused, under
every `CFG`. -/
def Obligations.EmptyKnowledgeIsNeverRefused : Prop :=
  ∀ s : State, s.inst.k = Knowledge.empty → s.fetch.held.wsel ≠ 0b11#2 →
    ∃ i, decode s.fetch.held.word = .op i ∧ step s = .next { s.fetch with p := parityOf i }

/-- The machine's step and the bare step of R30 give the same outcome. -/
def Obligations.StepRefinesThePureStep : Prop :=
  ∀ s : State,
    (∀ e, portStep s.inst s.fetch.held = .response e ↔ step s = .next { s.fetch with p := e }) ∧
    (∀ why, portStep s.inst s.fetch.held = .refused why ↔ step s = .refused why)

/-- The response belongs to the request (R131): after every step that completes, `p` is the parity of the
operand held on the ports, the instance is the one before (R28) and the first waiting request is used up;
after a refusal the state the run goes on with (the model's reading: notes/assumptions/8.md) has the same
property. -/
def Obligations.EveryStepLeavesThePortsInAgreement : Prop :=
  (∀ s t : State, step s = .next t →
    portsAgree t = true ∧ t.inst = s.inst ∧ t.requests = s.requests.tail ∧ t.held = s.fetch.held) ∧
  (∀ (s : State) (why : Refusal), step s = .refused why → portsAgree s.fetch = true)

/-- The ports agree right after reset. The port values are the model's choice (notes/assumptions/1.md). -/
def Obligations.PortsAgreeAtReset : Prop :=
  portsAgree State.reset = true

/-! ## Runs -/

/-- R132: the run of a list of requests is the map of the bare step over the list. The waiting requests and
the run over them are the model's form of R132: notes/assumptions/4.md, 8.md. -/
def Obligations.RunIsTheMapOfTheStep : Prop :=
  ∀ s : State, s.run = s.requests.map (portStep s.inst)

/-- R41: two equal requests of one run get equal outcomes, whatever was presented between them. -/
def Obligations.EqualRequestsGetEqualOutcomes : Prop :=
  (∀ (s : State) (m n : Nat), s.requests[m]? = s.requests[n]? → s.run[m]? = s.run[n]?) ∧
  (∀ (s s' : State), s.inst = s'.inst → s.fetch.held = s'.fetch.held →
    (∀ t, step s = .next t → ∃ t', step s' = .next t' ∧ t'.p = t.p) ∧
    (∀ why, step s = .refused why → step s' = .refused why))

/-- R38: in any run, each request gets the outcome it would get alone, from any other state of the same
instance. -/
def Obligations.EachRequestIsAnsweredAsIfAlone : Prop :=
  ∀ (s s' : State) (n : Nat) (r : Request), s.inst = s'.inst → s.requests[n]? = some r →
    s.run[n]? = (State.run { s' with requests := [r] })[0]?

/-- R113: leaving the refused requests of a run out leaves the responses of the others as they are, and the
mark is set exactly where a request is not admitted. The run that goes on is the model's form of R113:
notes/assumptions/8.md. -/
def Obligations.RefusedRequestsAffectNoOther : Prop :=
  ∀ s : State,
    s.run.filter PortOutcome.isResponse =
      State.run { s with requests := s.requests.filter (admits s.inst) } ∧
    (containsRefusal s.run = true ↔ ∃ r ∈ s.requests, admits s.inst r = false)

/-- R127, R133: where every waiting request is admitted, `n` waiting requests take exactly `n` steps, none
of them stops, and the last response is the parity of the last operand. -/
def Obligations.AdmittedRunsComplete : Prop :=
  ∀ s : State, launchPremise s.inst s.requests = true →
    ∃ t : State, Host.Core.run Sys2Proof.core s.requests.length s = .next t ∧
      t.requests = [] ∧ t.inst = s.inst ∧
      (∀ r, s.requests.getLast? = some r →
        t.held = r ∧ ∃ i, decode r.word = .op i ∧ t.p = parityOf i) ∧
      s.run = s.requests.map fun r =>
        match decode r.word with
        | .op i => .response (parityOf i)
        | .invalid _ => .refused .reservedWsel

/-! ## The laws of the contract -/

/-- R58: the three forms of the parity bit are one function, and on every admitted request of every
instance the response is it. -/
def Obligations.ResponseIsPopcountModTwo : Prop :=
  (∀ (inst : Instance) (r : Request) (i : Instr), decode r.word = .op i → soundFor inst i = true →
    portStep inst r = .response (parityOf i)) ∧
  (∀ (w : Nat) (v : BitVec w),
    (par v).toNat = popcount v % 2 ∧ (par v = 1#1 ↔ Odd (popcount v)) ∧
    (par v = 0#1 ↔ Even (popcount v)) ∧ par v = xorAll v)

/-- R62: cross-width consistency, on any instances that admit the requests. -/
def Obligations.CrossWidthConsistency : Prop :=
  (∀ (inst inst' : Instance) (x : BitVec 16) (a b : Bit), x.toNat ≤ 0xFF →
    portStep inst (encodeRequest (.parity16 x)) = .response a →
    portStep inst' (encodeRequest (.parity8 (low8 x))) = .response b → a = b) ∧
  (∀ (inst inst' : Instance) (x : BitVec 32) (a b : Bit), x.toNat ≤ 0xFFFF →
    portStep inst (encodeRequest (.parity32 x)) = .response a →
    portStep inst' (encodeRequest (.parity16 (low16 x))) = .response b → a = b)

/-- R63: fold-invariance, in every configuration. -/
def Obligations.FoldInvariance : Prop :=
  ∀ (inst inst' : Instance) (x : BitVec 32) (a b : Bit), low16 x = 0#16 →
    portStep inst (encodeRequest (.parity32 x)) = .response a →
    portStep inst' (encodeRequest (.parity16 ((x >>> 16).setWidth 16))) = .response b → a = b

/-- R11, R64: no value of `CFG` or `K` changes a response; in particular an operand whose parity the
instance knows gets the response of an instance that knows nothing. -/
def Obligations.ConfigurationChangesNoResponse : Prop :=
  (∀ (inst inst' : Instance) (r : Request), admits inst r = true → admits inst' r = true →
    portStep inst r = portStep inst' r) ∧
  (∀ (inst : Instance) (cfg : Cfg) (r : Request), admits inst r = true →
    portStep inst r = portStep { cfg := cfg, k := Knowledge.empty } r)

/-- R68: the zero-padding law. -/
def Obligations.ZeroPaddingKeepsParity : Prop :=
  (∀ (n N : Nat) (v : BitVec n), n ≤ N → par (zext N v) = par v) ∧
  (∀ (n N : Nat) (v : BitVec N), n ≤ N → v.extractLsb' n (N - n) = 0#(N - n) →
    par v = par (v.extractLsb' 0 n)) ∧
  (∀ (n N : Nat) (v : BitVec N), n ≤ N → v.extractLsb' 0 n = 0#n →
    par v = par (v.extractLsb' n (N - n)))

/-- R69: the XOR law, the fold of the halves, permutation of the bits, and complement. -/
def Obligations.XorLaw : Prop :=
  (∀ (w : Nat) (a b : BitVec w), par (a ^^^ b) = par a ^^^ par b) ∧
  (∀ (n : Nat) (v : BitVec (2 * n)), par v = par (v.extractLsb' n n ^^^ v.extractLsb' 0 n)) ∧
  (∀ (w : Nat) (v : BitVec w) (σ : Equiv.Perm (Fin w)),
    par (BitVec.ofFnLE fun j => v.getLsb (σ j)) = par v) ∧
  (∀ (w : Nat) (v : BitVec w), par (~~~v) = par v ^^^ BitVec.ofNat 1 (w % 2)) ∧
  (∀ x : BitVec 8, par (~~~x) = par x) ∧ (∀ x : BitVec 16, par (~~~x) = par x) ∧
  (∀ x : BitVec 32, par (~~~x) = par x)

/-- 95_test_vectors.md Part 2.4: half of all operands of a width have odd parity. -/
def Obligations.HalfOfAllOperandsAreOdd : Prop :=
  ∀ w : Nat, 0 < w → 2 * (Finset.univ.filter fun v : BitVec w => par v = 1#1).card = 2 ^ w

/-! ## The tree -/

/-- R95, R96, R97, R104: every fold keeps the parity, bit by bit as the rules write them, and the leaf and
the canonical 8-bit tree return it. -/
def Obligations.FoldsKeepParity : Prop :=
  (∀ v : BitVec 32, par (fold32 v) = par v ∧
    ∀ n < 16, (fold32 v).getLsbD n = (v.getLsbD (n + 16) ^^ v.getLsbD n)) ∧
  (∀ v : BitVec 16, par (fold16 v) = par v ∧
    ∀ n < 8, (fold16 v).getLsbD n = (v.getLsbD (n + 8) ^^ v.getLsbD n)) ∧
  (∀ b : BitVec 8, leaf8 b = par b ∧ par (fold8 b) = par b ∧ fold2 (fold4 (fold8 b)) = par b) ∧
  (∀ n : BitVec 4, par (fold4 n) = par n) ∧ (∀ m : BitVec 2, fold2 m = par m)

/-- R101: the four-byte form feeds the leaf the same byte. -/
def Obligations.FourByteFormIsTheSameByte : Prop :=
  ∀ (cfg : Cfg) (x : BitVec 32), cfg.strategy = .fast →
    fold32 x = (byteOf x 3 ^^^ byteOf x 1) ++ (byteOf x 2 ^^^ byteOf x 0) ∧
    fourByteXor x = fold16 (fold32 x) ∧
    compute32 cfg x =
      leaf8 (x.extractLsb' 24 8 ^^^ x.extractLsb' 16 8 ^^^ x.extractLsb' 8 8 ^^^ x.extractLsb' 0 8)

/-- R106: the variants agree with each other and with the reference function, on every operand. -/
def Obligations.VariantsAgree : Prop :=
  ∀ f p : Cfg, f.strategy = .fast → p.strategy = .portable →
    (∀ x, compute8 f x = compute8 p x ∧ compute8 p x = par x) ∧
    (∀ x, compute16 f x = compute16 p x ∧ compute16 p x = par x) ∧
    (∀ x, compute32 f x = compute32 p x ∧ compute32 p x = par x)

/-! ## The dispatcher -/

/-- R72: the soundness predicates, clause by clause. -/
def Obligations.SoundnessClauses : Prop :=
  ∀ cfg : Cfg,
    (∀ (k : Know8) (x : BitVec 8), sound8 cfg k x = true ↔
      (∀ c, k.const = some c → par x = c) ∧ (k.onehot0 = true → popcount x ≤ 1)) ∧
    (∀ (k : Know16) (x : BitVec 16), sound16 cfg k x = true ↔
      (∀ c, k.const = some c → par x = c) ∧ (k.onehot0 = true → popcount x ≤ 1) ∧
      (k.fits8 = true → x.toNat ≤ 0xFF) ∧
      (select16 cfg k = .t3 → sound8 cfg k.sub (x.extractLsb' 0 8) = true)) ∧
    (∀ (k : Know32) (x : BitVec 32), sound32 cfg k x = true ↔
      (∀ c, k.const = some c → par x = c) ∧ (k.onehot0 = true → popcount x ≤ 1) ∧
      (k.fits16 = true → x.toNat ≤ 0xFFFF) ∧ (k.low16zero = true → x.extractLsb' 0 16 = 0#16) ∧
      (select32 cfg k = .t3 → sound16 cfg k.sub (x.extractLsb' 0 16) = true) ∧
      (select32 cfg k = .t4 → sound16 cfg k.sub (x.extractLsb' 16 16) = true)) ∧
    (∀ x, sound8 cfg Know8.empty x = true) ∧ (∀ x, sound16 cfg Know16.empty x = true) ∧
    (∀ x, sound32 cfg Know32.empty x = true)

/-- R88: under every configuration, with every sound knowledge, each dispatcher returns the parity. -/
def Obligations.DispatchersAreCorrect : Prop :=
  ∀ cfg : Cfg,
    (∀ (k : Know8) (x : BitVec 8), sound8 cfg k x = true → dispatch8 cfg k x = par x) ∧
    (∀ (k : Know16) (x : BitVec 16), sound16 cfg k x = true → dispatch16 cfg k x = par x) ∧
    (∀ (k : Know32) (x : BitVec 32), sound32 cfg k x = true → dispatch32 cfg k x = par x)

/-- R76: with folding disabled every dispatcher is the computation strategy, whatever `K` says. -/
def Obligations.FoldingDisabledOnlyComputes : Prop :=
  ∀ cfg : Cfg, cfg.foldEnable = false →
    (∀ k x, dispatch8 cfg k x = compute8 cfg x ∧ trace8 cfg k = [(.w8, .t5)]) ∧
    (∀ k x, dispatch16 cfg k x = compute16 cfg x ∧ trace16 cfg k = [(.w16, .t5)]) ∧
    (∀ k x, dispatch32 cfg k x = compute32 cfg x ∧ trace32 cfg k = [(.w32, .t5)])

/-- R75, R90: when each dispatcher selects each tier, under every configuration and every knowledge. Each
condition names the tests that failed before it and the one that succeeded, so that the order of R75 is part
of the statement. The last clauses say which tiers a dispatcher has, each selected by some instance. -/
def Obligations.TiersOfEachWidth : Prop :=
  (∀ (cfg : Cfg) (k : Know8),
    (select8 cfg k = .t1 ↔ cfg.foldEnable = true ∧ ∃ c, k.const = some c) ∧
    (select8 cfg k = .t2 ↔ cfg.foldEnable = true ∧ k.const = none ∧ k.onehot0 = true) ∧
    (select8 cfg k = .t5 ↔ cfg.foldEnable = false ∨ (k.const = none ∧ k.onehot0 = false))) ∧
  (∀ (cfg : Cfg) (k : Know16),
    (select16 cfg k = .t1 ↔ cfg.foldEnable = true ∧ ∃ c, k.const = some c) ∧
    (select16 cfg k = .t2 ↔ cfg.foldEnable = true ∧ k.const = none ∧ k.onehot0 = true) ∧
    (select16 cfg k = .t3 ↔
      cfg.foldEnable = true ∧ k.const = none ∧ k.onehot0 = false ∧ k.fits8 = true) ∧
    (select16 cfg k = .t5 ↔
      cfg.foldEnable = false ∨ (k.const = none ∧ k.onehot0 = false ∧ k.fits8 = false))) ∧
  (∀ (cfg : Cfg) (k : Know32),
    (select32 cfg k = .t1 ↔ cfg.foldEnable = true ∧ ∃ c, k.const = some c) ∧
    (select32 cfg k = .t2 ↔ cfg.foldEnable = true ∧ k.const = none ∧ k.onehot0 = true) ∧
    (select32 cfg k = .t3 ↔
      cfg.foldEnable = true ∧ k.const = none ∧ k.onehot0 = false ∧ k.fits16 = true) ∧
    (select32 cfg k = .t4 ↔
      cfg.foldEnable = true ∧ k.const = none ∧ k.onehot0 = false ∧ k.fits16 = false ∧
        cfg.shiftTier = true ∧ k.low16zero = true) ∧
    (select32 cfg k = .t5 ↔
      cfg.foldEnable = false ∨
        (k.const = none ∧ k.onehot0 = false ∧ k.fits16 = false ∧
          (cfg.shiftTier = false ∨ k.low16zero = false)))) ∧
  (∀ t : Tier, (∃ cfg k, select8 cfg k = t) ↔ t = .t1 ∨ t = .t2 ∨ t = .t5) ∧
  (∀ t : Tier, (∃ cfg k, select16 cfg k = t) ↔ t = .t1 ∨ t = .t2 ∨ t = .t3 ∨ t = .t5) ∧
  (∀ t : Tier, ∃ cfg k, select32 cfg k = t)

/-- The condition and the result of every tier with folding enabled (R77 to R82), at each width (R83 to
R85), in the fixed order (R87) and for every operand, sound or not. `FoldingDisabledOnlyComputes` says what
happens with folding disabled. -/
def Obligations.TierConditionsAndResults : Prop :=
  ∀ cfg : Cfg, cfg.foldEnable = true →
    (∀ (k : Know8) (x : BitVec 8),
      (∀ c, k.const = some c → dispatch8 cfg k x = c) ∧
      (k.const = none → k.onehot0 = true → dispatch8 cfg k x = if x = 0 then 0#1 else 1#1) ∧
      (k.const = none → k.onehot0 = false → dispatch8 cfg k x = compute8 cfg x)) ∧
    (∀ (k : Know16) (x : BitVec 16),
      (∀ c, k.const = some c → dispatch16 cfg k x = c) ∧
      (k.const = none → k.onehot0 = true → dispatch16 cfg k x = if x = 0 then 0#1 else 1#1) ∧
      (k.const = none → k.onehot0 = false → k.fits8 = true →
        dispatch16 cfg k x = dispatch8 cfg k.sub (x.extractLsb' 0 8)) ∧
      (k.const = none → k.onehot0 = false → k.fits8 = false → dispatch16 cfg k x = compute16 cfg x)) ∧
    (∀ (k : Know32) (x : BitVec 32),
      (∀ c, k.const = some c → dispatch32 cfg k x = c) ∧
      (k.const = none → k.onehot0 = true → dispatch32 cfg k x = if x = 0 then 0#1 else 1#1) ∧
      (k.const = none → k.onehot0 = false → k.fits16 = true →
        dispatch32 cfg k x = dispatch16 cfg k.sub (x.extractLsb' 0 16)) ∧
      (k.const = none → k.onehot0 = false → k.fits16 = false →
        cfg.shiftTier = true → k.low16zero = true →
        dispatch32 cfg k x = dispatch16 cfg k.sub (x.extractLsb' 16 16)) ∧
      (k.const = none → k.onehot0 = false → k.fits16 = false →
        (cfg.shiftTier = false ∨ k.low16zero = false) → dispatch32 cfg k x = compute32 cfg x))

/-- R89: a trace has one to three entries, strictly narrowing, delegating tiers at every entry but the
last, and a tier that does not delegate at the last. -/
def Obligations.TracesNarrowAndEnd : Prop :=
  ∀ (inst : Instance) (tr : List (Width × Tier)),
    tr = trace8 inst.cfg inst.k.k8 ∨ tr = trace16 inst.cfg inst.k.k16 ∨ tr = trace32 inst.cfg inst.k.k32 →
    1 ≤ tr.length ∧ tr.length ≤ 3 ∧ tr.Pairwise (fun a b => b.1.bits < a.1.bits) ∧
    (∀ e ∈ tr.dropLast, e.2 = .t3 ∨ e.2 = .t4) ∧
    (∀ e, tr.getLast? = some e → e.2 = .t1 ∨ e.2 = .t2 ∨ e.2 = .t5)

/-! ## The structure -/

/-- The gates built for an instance, which are a function of `CFG` and `K` alone (R86), compute what the
dispatchers return for every value of the bus. The wiring inside the FAST leaf and inside the OR is the
model's choice: notes/assumptions/5.md. -/
def Obligations.StructureComputesTheDispatcher : Prop :=
  ∀ (inst : Instance) (xbus : Bus),
    (structureFor inst .w8).eval xbus = dispatch8 inst.cfg inst.k.k8 (xbus.extractLsb' 0 8) ∧
    (structureFor inst .w16).eval xbus = dispatch16 inst.cfg inst.k.k16 (xbus.extractLsb' 0 16) ∧
    (structureFor inst .w32).eval xbus = dispatch32 inst.cfg inst.k.k32 xbus

/-- R77, R79 to R81: the lines a structure does not connect. -/
def Obligations.UnconnectedLines : Prop :=
  ∀ inst : Instance,
    (∀ w, ∀ n ∈ (structureFor inst w).reads, n < w.bits) ∧
    (select8 inst.cfg inst.k.k8 = .t1 → (structureFor inst .w8).reads = []) ∧
    (select16 inst.cfg inst.k.k16 = .t1 → (structureFor inst .w16).reads = []) ∧
    (select32 inst.cfg inst.k.k32 = .t1 → (structureFor inst .w32).reads = []) ∧
    (select16 inst.cfg inst.k.k16 = .t3 → ∀ n ∈ (structureFor inst .w16).reads, n < 8) ∧
    (select32 inst.cfg inst.k.k32 = .t3 → ∀ n ∈ (structureFor inst .w32).reads, n < 16) ∧
    (select32 inst.cfg inst.k.k32 = .t4 → ∀ n ∈ (structureFor inst .w32).reads, 16 ≤ n)

/-- R108: the size of the canonical tree wherever tier 5 is selected under PORTABLE. -/
def Obligations.SizeOfTheCanonicalTree : Prop :=
  ∀ inst : Instance, inst.cfg.strategy = .portable →
    (select8 inst.cfg inst.k.k8 = .t5 →
      (structureFor inst .w8).gates = 7 ∧ (structureFor inst .w8).depth = 3) ∧
    (select16 inst.cfg inst.k.k16 = .t5 →
      (structureFor inst .w16).gates = 15 ∧ (structureFor inst .w16).depth = 4) ∧
    (select32 inst.cfg inst.k.k32 = .t5 →
      (structureFor inst .w32).gates = 31 ∧ (structureFor inst .w32).depth = 5)

/-- R109: any network of XOR gates that connects each operand line once, in any order and grouping,
computes the parity of the operand. -/
def Obligations.AnyRegroupingIsTheSameFunction : Prop :=
  ∀ (n : Net) (w : Nat) (xbus : Bus), w ≤ 32 → n.isXorTree = true → n.reads.Perm (List.range w) →
    n.eval xbus = par (xbus.extractLsb' 0 w)

/-! ## The text -/

/-- R53: the line of an operation assembles to the canonical request. What the rule leaves open of the text
is the model's choice: notes/assumptions/6.md. -/
def Obligations.PrintedLinesAssemble : Prop :=
  ∀ i : Instr, (parseLine (printInstr i)).bind assemble = .ok (encodeRequest i)

/-- R53: a literal that does not fit is an error of the text, and the case of a mnemonic does not
matter. -/
def Obligations.TextErrorsAndMnemonicCase : Prop :=
  (∀ (w : Width) (d : Char) (ds : List Char) (v : Nat), hexValue? 0 (d :: ds) = some v → 2 ^ w.bits ≤ v →
    parseOperand w ('0' :: 'x' :: d :: ds) = .error .literalTooWide) ∧
  (∀ l : Line, l.literal < 2 ^ l.width.bits ↔ ∃ r, assemble l = .ok r) ∧
  (∀ i : Instr, mnemonic? i.mnemonic.toList = some i.width) ∧
  (∀ word : List Char, mnemonic? (word.map Char.toUpper) = mnemonic? word)
end

