-- ==== Sys2Proof/Laws/Dispatcher.lean ====
section
/-! SUPPORT. What a selected tier says of the configuration and the knowledge it was selected from. -/

namespace Sys2Proof.Machine

variable {cfg : Cfg}

theorem select8_t1 {k : Know8} (h : select8 cfg k = .t1) : ∃ c, k.const = some c := by
  unfold select8 at h
  split_ifs at h; simp_all [Option.isSome_iff_exists]

theorem select8_t2 {k : Know8} (h : select8 cfg k = .t2) : k.const = none ∧ k.onehot0 = true := by
  unfold select8 at h
  split_ifs at h; simp_all

theorem select16_t1 {k : Know16} (h : select16 cfg k = .t1) : ∃ c, k.const = some c := by
  unfold select16 at h
  split_ifs at h; simp_all [Option.isSome_iff_exists]

theorem select16_t2 {k : Know16} (h : select16 cfg k = .t2) : k.const = none ∧ k.onehot0 = true := by
  unfold select16 at h
  split_ifs at h; simp_all

theorem select16_t3 {k : Know16} (h : select16 cfg k = .t3) :
    k.const = none ∧ k.onehot0 = false ∧ k.fits8 = true := by
  unfold select16 at h
  split_ifs at h; simp_all

theorem select32_t1 {k : Know32} (h : select32 cfg k = .t1) : ∃ c, k.const = some c := by
  unfold select32 at h
  split_ifs at h; simp_all [Option.isSome_iff_exists]

theorem select32_t2 {k : Know32} (h : select32 cfg k = .t2) : k.const = none ∧ k.onehot0 = true := by
  unfold select32 at h
  split_ifs at h; simp_all

theorem select32_t3 {k : Know32} (h : select32 cfg k = .t3) :
    k.const = none ∧ k.onehot0 = false ∧ k.fits16 = true := by
  unfold select32 at h
  split_ifs at h; simp_all

theorem select32_t4 {k : Know32} (h : select32 cfg k = .t4) :
    k.const = none ∧ k.onehot0 = false ∧ k.fits16 = false ∧ cfg.shiftTier = true ∧ k.low16zero = true := by
  unfold select32 at h
  split_ifs at h; simp_all

end Sys2Proof.Machine
end

