-- ==== Sys2Proof/Laws/Netlist.lean ====
section
/-! SUPPORT. The small lemmas of networks. -/

namespace Sys2Proof.Machine

variable (xbus : Bus) (a b : Net)

@[simp] theorem eval_tie (e : Bit) : (Net.tie e).eval xbus = e := rfl
@[simp] theorem eval_line (n : Nat) : (Net.line n).eval xbus = bitAt xbus n := rfl
@[simp] theorem eval_xor : (a.xor b).eval xbus = a.eval xbus ^^^ b.eval xbus := rfl
@[simp] theorem eval_or : (a.or b).eval xbus = a.eval xbus ||| b.eval xbus := rfl

@[simp] theorem length_busLines (lo n : Nat) : (busLines lo n).length = n := by simp [busLines]

/-- A fold halves a bundle of even length. -/
theorem length_foldNets (l : List Net) : (foldNets l).length = min (l.length - l.length / 2) (l.length / 2) := by
  simp [foldNets]; omega

end Sys2Proof.Machine
end

