-- ==== Sys2Proof/Laws/State.lean ====
section
/-! SUPPORT. One lemma per field of State and update of it. -/

namespace Sys2Proof.Machine

variable (s : State) (r : Request) (e : Bit)

@[simp] theorem present_inst : (s.present r).inst = s.inst := rfl
@[simp] theorem present_wsel : (s.present r).wsel = r.wsel := rfl
@[simp] theorem present_xbus : (s.present r).xbus = r.xbus := rfl
@[simp] theorem present_p : (s.present r).p = s.p := rfl
@[simp] theorem present_requests : (s.present r).requests = s.requests := rfl
@[simp] theorem present_held : (s.present r).held = r := rfl

@[simp] theorem respond_inst : (s.respond e).inst = s.inst := rfl
@[simp] theorem respond_wsel : (s.respond e).wsel = s.wsel := rfl
@[simp] theorem respond_xbus : (s.respond e).xbus = s.xbus := rfl
@[simp] theorem respond_p : (s.respond e).p = e := rfl
@[simp] theorem respond_requests : (s.respond e).requests = s.requests := rfl
@[simp] theorem respond_held : (s.respond e).held = s.held := rfl

theorem fetch_of_nil {s : State} (h : s.requests = []) : s.fetch = s := by simp [State.fetch, h]

theorem fetch_of_cons {s : State} {r : Request} {rest : List Request} (h : s.requests = r :: rest) :
    s.fetch = { s.present r with requests := rest } := by simp [State.fetch, h]

@[simp] theorem fetch_inst : s.fetch.inst = s.inst := by
  unfold State.fetch; split <;> rfl
@[simp] theorem fetch_p : s.fetch.p = s.p := by
  unfold State.fetch; split <;> rfl
@[simp] theorem fetch_requests : s.fetch.requests = s.requests.tail := by
  unfold State.fetch; split <;> simp [*]
theorem fetch_held : s.fetch.held = s.requests.headD s.held := by
  unfold State.fetch; split <;> simp_all [State.held]

variable (nbits w : Nat)

@[simp] theorem withFetchWord_inst : (s.withFetchWord nbits w).inst = s.inst := rfl
@[simp] theorem withFetchWord_wsel : (s.withFetchWord nbits w).wsel = s.wsel := rfl
@[simp] theorem withFetchWord_xbus : (s.withFetchWord nbits w).xbus = s.xbus := rfl
@[simp] theorem withFetchWord_p : (s.withFetchWord nbits w).p = s.p := rfl
@[simp] theorem withFetchWord_requests :
    (s.withFetchWord nbits w).requests = Request.ofWord (tableWord nbits w) :: s.requests := rfl

end Sys2Proof.Machine
end

