-- ==== Sys2Proof/Laws/Ops.lean ====
section
/-! SUPPORT. Everything the shared answer, a meaning and a step can do, said once. -/

namespace Sys2Proof.Machine

theorem answer_eq_next_iff {sound : Bool} {e : Bit} {s t : State} :
    answer sound e s = .next t ↔ sound = true ∧ t = s.respond e := by
  cases sound <;> simp [answer, eq_comm]

theorem answer_eq_refused_iff {sound : Bool} {e : Bit} {s : State} {why : Refusal} :
    answer sound e s = .refused why ↔ sound = false ∧ why = .unsoundKnowledge := by
  cases sound <;> simp [answer, eq_comm]

/-- Every meaning is the shared answer with its own operation's soundness and dispatcher. -/
theorem exec_eq_answer (i : Instr) (s : State) :
    exec i s = answer (soundFor s.inst i) (dispatchFor s.inst i) s := by
  cases i <;> rfl

/-- What a meaning does when it completes. -/
theorem exec_eq_next_iff {i : Instr} {s t : State} :
    exec i s = .next t ↔ soundFor s.inst i = true ∧ t = s.respond (dispatchFor s.inst i) := by
  rw [exec_eq_answer, answer_eq_next_iff]

/-- When a meaning refuses. -/
theorem exec_eq_refused_iff {i : Instr} {s : State} {why : Refusal} :
    exec i s = .refused why ↔ soundFor s.inst i = false ∧ why = .unsoundKnowledge := by
  rw [exec_eq_answer, answer_eq_refused_iff]

theorem step_of_op {s : State} {i : Instr} (h : decode s.fetch.held.word = .op i) :
    step s = exec i s.fetch := by
  simp [step, h]

theorem step_of_invalid {s : State} {why : Invalid} (h : decode s.fetch.held.word = .invalid why) :
    step s = .refused .reservedWsel := by
  simp [step, h]

/-- What a step does when it answers a next state. -/
theorem step_eq_next_iff {s t : State} :
    step s = .next t ↔ ∃ i, decode s.fetch.held.word = .op i ∧ soundFor s.inst i = true ∧
      t = s.fetch.respond (dispatchFor s.inst i) := by
  cases h : decode s.fetch.held.word with
  | op i => simp [step_of_op h, exec_eq_next_iff]
  | invalid why => simp [step_of_invalid h]

/-- When a step refuses, and why. -/
theorem step_eq_refused_iff {s : State} {why : Refusal} :
    step s = .refused why ↔
      (decode s.fetch.held.word = .invalid .reservedWsel ∧ why = .reservedWsel) ∨
      ∃ i, decode s.fetch.held.word = .op i ∧ soundFor s.inst i = false ∧ why = .unsoundKnowledge := by
  cases h : decode s.fetch.held.word with
  | op i => simp [step_of_op h, exec_eq_refused_iff]
  | invalid v => cases v; simp [step_of_invalid h, @eq_comm _ Refusal.reservedWsel why]

end Sys2Proof.Machine
end

