-- ==== Sys2Proof/Laws/Parity.lean ====
section
/-! SUPPORT. The small lemmas of `popcount`, `par` and `xorAll`. -/

namespace Sys2Proof.Machine

variable {w : Nat} (v : BitVec w)

@[simp] theorem popcountBelow_zero : popcountBelow v 0 = 0 := rfl

theorem popcountBelow_succ (n : Nat) :
    popcountBelow v (n + 1) = popcountBelow v n + (v.getLsbD n).toNat := rfl

@[simp] theorem xorBelow_zero : xorBelow v 0 = 0#1 := rfl

theorem xorBelow_succ (n : Nat) : xorBelow v (n + 1) = bitAt v n ^^^ xorBelow v n := rfl

theorem popcountBelow_le (n : Nat) : popcountBelow v n ≤ n := by
  induction n with
  | zero => simp
  | succ n ih => rw [popcountBelow_succ]; have := (v.getLsbD n).toNat_le; omega

/-- The count never exceeds the width (R66). -/
theorem popcount_le : popcount v ≤ w := popcountBelow_le v w

theorem par_toNat : (par v).toNat = popcount v % 2 := by
  simp [par, BitVec.toNat_ofNat]

end Sys2Proof.Machine
end

