-- ==== Sys2Proof/Laws/Request.lean ====
section
/-! SUPPORT. The request word and the two ports it carries. -/

namespace Sys2Proof

@[simp] theorem wselOf_word (r : Request) : wselOf r.word = r.wsel := by
  ext i hi
  rw [wselOf, BitVec.getElem_extractLsb']
  exact (BitVec.getLsbD_append (x := r.wsel) (y := r.xbus)).trans (by simp [BitVec.getLsbD_eq_getElem hi])

@[simp] theorem xbusOf_word (r : Request) : xbusOf r.word = r.xbus := by
  ext i hi
  rw [xbusOf, BitVec.getElem_extractLsb']
  exact (BitVec.getLsbD_append (x := r.wsel) (y := r.xbus)).trans (by simp [hi])

@[simp] theorem ofWord_word (r : Request) : Request.ofWord r.word = r := by
  simp [Request.ofWord]

@[simp] theorem word_ofWord (w : RequestWord) : (Request.ofWord w).word = w :=
  BitVec.extractLsb'_append_extractLsb'_eq_extractLsb' (w := 34) (x := w) rfl |>.trans (by simp)

/-- The four width select codes (R43, R44). -/
theorem wsel_cases (c : Wsel) : c = 0#2 ∨ c = 1#2 ∨ c = 2#2 ∨ c = 3#2 := by
  revert c; decide

end Sys2Proof
end

