-- ==== Sys2Proof/Laws/PerInstr.lean ====
section
/-! SUPPORT. Statements made per operation. -/

/-- The canonical request of an operation names a legal code, has zeros in the ignored bits, carries the
operand's value on the bus, and its width select is the code of the operation's width, `W = 8 * 2^wsel`
(R43, R46). -/
def Sys2Proof.Laws.EncodesCanonically.Statement (i : Sys2Proof.Instr) : Prop :=
  (Sys2Proof.encodeRequest i).legal = true ∧
  (Sys2Proof.encodeRequest i).canonical = true ∧
  (Sys2Proof.encodeRequest i).xbus.toNat = i.operand ∧
  i.width.bits = 8 * 2 ^ (Sys2Proof.encodeRequest i).wsel.toNat ∧
  Sys2Proof.Request.ofWord (Sys2Proof.encode i) = Sys2Proof.encodeRequest i

namespace Sys2Proof.Laws.EncodesCanonically

theorem parity8 (x : BitVec 8) : Statement (.parity8 x) := by
  refine ⟨rfl, ?_, ?_, rfl, ofWord_word _⟩
  · have h : (x.setWidth 32).extractLsb' 8 24 = 0#24 := by ext i hi; simp
    simp [encodeRequest, busOperand, wselCode, Instr.width, Request.canonical, h]
  · have := x.isLt
    simp only [encodeRequest, busOperand, Instr.operand, BitVec.toNat_setWidth]; omega

theorem parity16 (x : BitVec 16) : Statement (.parity16 x) := by
  refine ⟨rfl, ?_, ?_, rfl, ofWord_word _⟩
  · have h : (x.setWidth 32).extractLsb' 16 16 = 0#16 := by ext i hi; simp
    simp [encodeRequest, busOperand, wselCode, Instr.width, Request.canonical, h]
  · have := x.isLt
    simp only [encodeRequest, busOperand, Instr.operand, BitVec.toNat_setWidth]; omega

theorem parity32 (x : BitVec 32) : Statement (.parity32 x) :=
  ⟨rfl, rfl, rfl, rfl, ofWord_word _⟩

end Sys2Proof.Laws.EncodesCanonically
end

