-- ==== Sys2Proof/Laws/Run.lean ====
section
/-! SUPPORT. One step of a run, of the model's own and of the host's. -/

namespace Sys2Proof.Machine

theorem respondTo_of_sound {inst : Instance} {i : Instr} (h : soundFor inst i = true) :
    respondTo inst i = .response (dispatchFor inst i) := by simp [respondTo, h]

theorem respondTo_of_unsound {inst : Instance} {i : Instr} (h : soundFor inst i = false) :
    respondTo inst i = .refused .unsoundKnowledge := by simp [respondTo, h]

theorem portStep_of_op {inst : Instance} {r : Request} {i : Instr} (h : decode r.word = .op i) :
    portStep inst r = respondTo inst i := by simp [portStep, h]

theorem portStep_of_invalid {inst : Instance} {r : Request} {why : Invalid}
    (h : decode r.word = .invalid why) : portStep inst r = .refused .reservedWsel := by
  simp [portStep, h]

@[simp] theorem outcomes_zero (s : State) : s.outcomes 0 = [] := rfl

theorem outcomes_of_next {n : Nat} {s t : State} (h : step s = .next t) :
    s.outcomes (n + 1) = .response t.p :: t.outcomes n := by simp [State.outcomes, h]

theorem outcomes_of_refused {n : Nat} {s : State} {why : Refusal} (h : step s = .refused why) :
    s.outcomes (n + 1) = .refused why :: s.fetch.outcomes n := by simp [State.outcomes, h]

theorem coreRun_of_next {M : Host.Core} {n : Nat} {s t : M.State} (h : M.step s = .next t) :
    M.run (n + 1) s = M.run n t := by rw [Host.Core.run, h]

theorem coreRun_of_refused {M : Host.Core} {n : Nat} {s : M.State} {why : M.Refusal}
    (h : M.step s = .refused why) : M.run (n + 1) s = .refused why := by rw [Host.Core.run, h]

end Sys2Proof.Machine
end

