-- ==== Sys2Proof/Tests/Slice0.lean ====
section
/-! SUPPORT. Tests. The expected values are those of spec/95_test_vectors.md and of the rules named; none was
read off the model. -/

namespace Sys2Proof.Machine.Tests

/-! ## Well-formedness: each check refuses an ill-formed term -/

theorem test_legal_refuses_reserved : Request.legal { wsel := 0b11#2, xbus := 0#32 } = false := by decide
theorem test_canonical_refuses_ignored_one :
    Request.canonical { wsel := 0b00#2, xbus := 0x00000100#32 } = false ∧
    Request.canonical { wsel := 0b01#2, xbus := 0x00010000#32 } = false ∧
    Request.canonical { wsel := 0b11#2, xbus := 0#32 } = false := by decide
theorem test_canonical_accepts_full_bus :
    Request.canonical { wsel := 0b10#2, xbus := 0xFFFFFFFF#32 } = true := by decide
theorem test_fits_refuses_wide_literal :
    Line.fits { width := .w8, literal := 0x100, expected := none } = false ∧
    Line.fits { width := .w8, literal := 0xFF, expected := none } = true := by decide

/-! ## Decoding: words written bit by bit from the patterns of R49 -/

/-- Pattern `00 i… xxxxxxxx` with `x = 0x81`, ignored bits all one (95 Part 4.2, first row). -/
theorem test_decode_parity8 :
    decode 0b0011111111111111111111111110000001#34 = .op (.parity8 0x81#8) := by decide
/-- Pattern `01 i… x…` with `x = 0x8000` (95 Part 4.2). -/
theorem test_decode_parity16 :
    decode 0b0111111111111111111000000000000000#34 = .op (.parity16 0x8000#16) := by decide
/-- Pattern `10 x…` with `x = 0x12345678`. -/
theorem test_decode_parity32 :
    decode 0b1000010010001101000101011001111000#34 = .op (.parity32 0x12345678#32) := by decide
theorem test_decode_reserved : decode 0x3DEADBEEF#34 = .invalid .reservedWsel := by decide
/-- 95 Part 4.1, last column. -/
theorem test_encode :
    encode (.parity8 0x81#8) = 0x000000081#34 ∧ encode (.parity16 0x8000#16) = 0x100008000#34 ∧
    encode (.parity32 0xFFFFFFFF#32) = 0x2FFFFFFFF#34 := by decide
theorem test_decodeTableWord :
    decodeTableWord 40 0x1FFFF8000 = some (.parity16 0x8000#16) ∧ decodeTableWord 40 0x300000000 = none := by
  decide

/-! ## One step of each operation -/

/-- `parity8 0x07 => 1` (95 Part 2.1), from reset. -/
theorem test_step_parity8 : step (State.reset.withFetchWord 40 0x000000007) =
    .next { State.reset with wsel := 0b00#2, xbus := 0x7#32, p := 1#1 } := by rfl
/-- 95 Part 4.2, third row: the only 1 on the bus is ignored, so `p` goes back to 0. -/
theorem test_step_parity8_ignored_bit : step ({ State.reset with p := 1#1 }.withFetchWord 40 0x000000100) =
    .next { State.reset with wsel := 0b00#2, xbus := 0x100#32, p := 0#1 } := by rfl
/-- `parity16 0x8000 => 1` (S5). -/
theorem test_step_parity16 : step (State.reset.withFetchWord 40 0x100008000) =
    .next { State.reset with wsel := 0b01#2, xbus := 0x8000#32, p := 1#1 } := by rfl
/-- The same bus as in the second test of `parity8`, one width wider (P6, step 6). -/
theorem test_step_parity16_reads_bit8 : step (State.reset.withFetchWord 40 0x100000100) =
    .next { State.reset with wsel := 0b01#2, xbus := 0x100#32, p := 1#1 } := by rfl
/-- `parity32 0x80000000 => 1` (S8). -/
theorem test_step_parity32 : step (State.reset.withFetchWord 40 0x280000000) =
    .next { State.reset with wsel := 0b10#2, xbus := 0x80000000#32, p := 1#1 } := by rfl
/-- `parity32 0xDEADBEEF => 0` (95 Part 2.3). -/
theorem test_step_parity32_even : step ({ State.reset with p := 1#1 }.withFetchWord 40 0x2DEADBEEF) =
    .next { State.reset with wsel := 0b10#2, xbus := 0xDEADBEEF#32, p := 0#1 } := by rfl
theorem test_step_reserved : step (State.reset.withFetchWord 40 0x3FFFFFFFF) = .refused .reservedWsel := by rfl
/-- After a refusal the run goes on (R113; P6, steps 4 and 6). -/
theorem test_run_goes_on : State.run { State.reset with requests :=
      [Request.ofWord 0x300000000#34, Request.ofWord 0x100000100#34] } =
    [.refused .reservedWsel, .response 1#1] := by decide

/-! ## Instances -/

/-- The default `CFG` with some knowledge. -/
def know (k8 : Know8) (k16 : Know16) (k32 : Know32) : Instance :=
  { cfg := Instance.default.cfg, k := { k32 := k32, k16 := k16, k8 := k8 } }

/-- V3, V4: a constant that is false of the operand; at most one bit. -/
def instKnow8 (c : Option Bit) (o : Bool) : Instance :=
  know { const := c, onehot0 := o } Know16.empty Know32.empty
/-- V8, V10. -/
def instFits8 (sub : Know8) : Instance :=
  know Know8.empty { Know16.empty with fits8 := true, sub := sub } Know32.empty
/-- V12. -/
def instCascade : Instance := know Know8.empty Know16.empty
  { Know32.empty with fits16 := true, sub := { Know16.empty with fits8 := true } }
/-- V18, V21. -/
def instLow16Zero : Instance := know Know8.empty Know16.empty { Know32.empty with low16zero := true }
/-- The default instance under FAST. -/
def instFast : Instance := { Instance.default with cfg := { Instance.default.cfg with strategy := .fast } }

theorem test_v3_v6 :
    portStep (instKnow8 (some 0#1) false) (encodeRequest (.parity8 0x01#8)) = .refused .unsoundKnowledge ∧
    portStep (instKnow8 none true) (encodeRequest (.parity8 0x03#8)) = .refused .unsoundKnowledge := by decide
theorem test_v9_v10 :
    portStep (instFits8 Know8.empty) (encodeRequest (.parity16 0x01B7#16)) = .refused .unsoundKnowledge ∧
    trace16 (instFits8 { const := none, onehot0 := true }).cfg (instFits8 { const := none, onehot0 := true }).k.k16 =
      [(.w16, .t3), (.w8, .t2)] := by decide
theorem test_v12 :
    portStep instCascade (encodeRequest (.parity32 0x000000B7#32)) = .response 0#1 ∧
    trace32 instCascade.cfg instCascade.k.k32 = [(.w32, .t3), (.w16, .t3), (.w8, .t5)] := by decide
theorem test_v18_v21 :
    portStep instLow16Zero (encodeRequest (.parity32 0xBEEF0000#32)) = .response 1#1 ∧
    portStep instLow16Zero (encodeRequest (.parity32 0xBEEF0001#32)) = .refused .unsoundKnowledge ∧
    trace32 instLow16Zero.cfg instLow16Zero.k.k32 = [(.w32, .t4), (.w16, .t5)] := by decide
/-- V7, V11, V22: where two answers hold, the earlier tier is selected; V20, V25: a switch off. -/
theorem test_v7_v11_v20_v22_v25 :
    trace8 Instance.default.cfg { const := some 1#1, onehot0 := true } = [(.w8, .t1)] ∧
    trace16 Instance.default.cfg { Know16.empty with onehot0 := true, fits8 := true } = [(.w16, .t2)] ∧
    trace32 { Instance.default.cfg with shiftTier := false } { Know32.empty with low16zero := true } =
      [(.w32, .t5)] ∧
    trace32 Instance.default.cfg { Know32.empty with fits16 := true, low16zero := true } =
      [(.w32, .t3), (.w16, .t5)] ∧
    trace32 { Instance.default.cfg with foldEnable := false }
      { Know32.empty with const := some 1#1, fits16 := true } = [(.w32, .t5)] := by decide
/-- P3: the cascade is `compute8` on `xbus[7:0]`, 7 gates in place of 31. -/
theorem test_structure_of_cascade : (structureFor instCascade .w32).gates = 7 := by decide
/-- 95 Part 3.1 to 3.3. -/
theorem test_folds :
    fold32 0x12345678#32 = 0x444C#16 ∧ fold16 0x444C#16 = 0x08#8 ∧ fourByteXor 0xDEADBEEF#32 = 0x22#8 ∧
    fold8 0xB7#8 = 0xC#4 ∧ fold4 0xC#4 = 0b11#2 ∧ leaf8 0x08#8 = 1#1 := by decide

/-! ## Text -/

/-- R53: case, comment, response. -/
theorem test_parse_line :
    (parseLine "PARITY8 0x81 => 0 ; two bits".toList).toOption =
      some { width := .w8, literal := 0x81, expected := some 0#1 } := by decide
theorem test_text_errors :
    parseOperand .w8 "0x1FF".toList = .error .literalTooWide ∧
    parseOperand .w16 "0xFF".toList = .error .wrongDigitCount ∧
    parseOperand .w8 "81".toList = .error .badLiteral := by decide
/-- R54: the internal names are no requests. -/
theorem test_no_pseudo : mnemonic? "dispatch8".toList = none := by decide
/-- R55: a header with a nested block, and a request after it (P3). -/
theorem test_program :
    (parseProgram ("instance strategy=PORTABLE\n k32 ".toList ++ [openChar] ++ " fits16=true sub ".toList ++
      [openChar] ++ " fits8=true ".toList ++ [closeChar, closeChar] ++
      "\nparity32 0x000000B7".toList)).toOption =
    some (instCascade, [encodeRequest (.parity32 0x000000B7#32)]) := by decide
theorem test_default_header : (parseHeader ["instance".toList]).toOption = some Instance.default := by decide

/-! ## Witnesses: for every obligation with hypotheses, a state and operands that meet them -/

/-- A state with an instance and waiting requests. -/
def stateWith (inst : Instance) (rs : List Request) : State := { State.reset with inst := inst, requests := rs }

theorem witness_DecodeAndEncodeAgree :
    decode 0x000000081#34 = .op (.parity8 0x81#8) ∧ (Request.ofWord 0x000000081#34).canonical = true ∧
    decode 0x0FFFFFF81#34 = .op (.parity8 0x81#8) ∧ (Request.ofWord 0x0FFFFFF81#34).canonical = false := by
  decide
theorem witness_IgnoredBusBitsDoNotMatter :
    cut8 0xFFFFFF81#32 = cut8 0x00000081#32 ∧ cut16 0xFFFF8000#32 = cut16 0x00008000#32 := by decide
theorem witness_StepRunsTheDecodedRequest :
    decode (stateWith instFast [encodeRequest (.parity8 0xFF#8)]).fetch.held.word = .op (.parity8 0xFF#8) ∧
    (stateWith instFast [encodeRequest (.parity8 0xFF#8)]).requests = encodeRequest (.parity8 0xFF#8) :: [] ∧
    (stateWith instFast []).requests = [] := by decide
theorem witness_PresentedTableWordRunsItsOperation :
    decodeTableWord 40 0x0FFFFFF81 = some (.parity8 0x81#8) := by decide
theorem witness_Parity8RespondsWithParity :
    sound8 Instance.default.cfg Know8.empty 0xFF#8 = true ∧
    sound8 Instance.default.cfg { const := some 1#1, onehot0 := true } 0x40#8 = true := by decide
theorem witness_Parity16RespondsWithParity :
    sound16 Instance.default.cfg Know16.empty 0xFFFF#16 = true ∧
    sound16 Instance.default.cfg (instFits8 Know8.empty).k.k16 0x00FF#16 = true := by decide
theorem witness_Parity32RespondsWithParity :
    sound32 Instance.default.cfg Know32.empty 0xFFFFFFFF#32 = true ∧
    sound32 Instance.default.cfg instCascade.k.k32 0x000000FF#32 = true ∧
    sound32 Instance.default.cfg instLow16Zero.k.k32 0xFFFF0000#32 = true := by decide
theorem witness_OperationsWriteOnlyTheResponse :
    exec (.parity8 0x01#8) State.reset = .next { State.reset with p := 1#1 } ∧
    exec (.parity16 0x8000#16) State.reset = .next { State.reset with p := 1#1 } ∧
    exec (.parity32 0x80000000#32) State.reset = .next { State.reset with p := 1#1 } := ⟨rfl, rfl, rfl⟩
theorem witness_UnsoundKnowledgeIsRefused :
    decode (encodeRequest (.parity16 0x0100#16)).word = .op (.parity16 0x0100#16) ∧
    soundFor (stateWith (instFits8 Know8.empty) [encodeRequest (.parity16 0x0100#16)]).inst (.parity16 0x0100#16) = false ∧
    (stateWith (instFits8 Know8.empty) [encodeRequest (.parity16 0x0100#16)]).fetch.held =
      encodeRequest (.parity16 0x0100#16) := by decide
theorem witness_ReservedCodeIsRefused :
    (stateWith instFast [Request.ofWord 0x300000000#34]).fetch.held.wsel = 0b11#2 := by decide
theorem witness_RefusalReasonsAreExactlyTwo :
    admits instFast (encodeRequest (.parity32 0#32)) = true ∧
    step (stateWith instFast [Request.ofWord 0x300000000#34]) = .refused .reservedWsel ∧
    step (stateWith instLow16Zero [encodeRequest (.parity32 1#32)]) = .refused .unsoundKnowledge :=
  ⟨by decide, rfl, rfl⟩
theorem witness_EmptyKnowledgeIsNeverRefused :
    (stateWith instFast [Request.ofWord 0x2FFFFFFFF#34]).inst.k = Knowledge.empty ∧
    (stateWith instFast [Request.ofWord 0x2FFFFFFFF#34]).fetch.held.wsel ≠ 0b11#2 := by decide
theorem witness_StepRefinesThePureStep :
    portStep instFast (stateWith instFast [encodeRequest (.parity8 0x01#8)]).fetch.held = .response 1#1 ∧
    portStep instFast (stateWith instFast [Request.ofWord 0x300000000#34]).fetch.held = .refused .reservedWsel := by
  decide
theorem witness_EveryStepLeavesThePortsInAgreement :
    step (stateWith instLow16Zero [encodeRequest (.parity32 0x00010000#32)]) =
      .next { stateWith instLow16Zero [] with wsel := 0b10#2, xbus := 0x00010000#32, p := 1#1 } ∧
    step (stateWith instLow16Zero [encodeRequest (.parity32 0x0000FFFF#32)]) = .refused .unsoundKnowledge := ⟨rfl, rfl⟩
theorem witness_EqualRequestsGetEqualOutcomes :
    (stateWith instFast [encodeRequest (.parity8 1#8), encodeRequest (.parity16 3#16), encodeRequest (.parity8 1#8)]).requests[0]? =
      (stateWith instFast [encodeRequest (.parity8 1#8), encodeRequest (.parity16 3#16), encodeRequest (.parity8 1#8)]).requests[2]? ∧
    (stateWith instFast [encodeRequest (.parity8 1#8)]).inst = { stateWith instFast [encodeRequest (.parity8 1#8)] with p := 1#1 }.inst ∧
    (stateWith instFast [encodeRequest (.parity8 1#8)]).fetch.held =
      { stateWith instFast [encodeRequest (.parity8 1#8)] with p := 1#1 }.fetch.held := by decide
theorem witness_EachRequestIsAnsweredAsIfAlone :
    (stateWith instFast [encodeRequest (.parity8 1#8), encodeRequest (.parity16 3#16)]).inst = { stateWith instFast [] with p := 1#1 }.inst ∧
    (stateWith instFast [encodeRequest (.parity8 1#8), encodeRequest (.parity16 3#16)]).requests[1]? =
      some (encodeRequest (.parity16 3#16)) := by decide
theorem witness_AdmittedRunsComplete :
    launchPremise instCascade [encodeRequest (.parity32 0xFF#32), encodeRequest (.parity8 0x81#8)] = true ∧
    [encodeRequest (.parity32 0xFF#32), encodeRequest (.parity8 0x81#8)].getLast? =
      some (encodeRequest (.parity8 0x81#8)) := by decide
theorem witness_ResponseIsPopcountModTwo :
    decode (encodeRequest (.parity16 0xBEEF#16)).word = .op (.parity16 0xBEEF#16) ∧
    soundFor instCascade (.parity16 0xBEEF#16) = true := by decide
theorem witness_CrossWidthConsistency :
    (0x00FF#16).toNat ≤ 0xFF ∧
    portStep (instFits8 Know8.empty) (encodeRequest (.parity16 0x00FF#16)) = .response 0#1 ∧
    portStep instFast (encodeRequest (.parity8 (low8 0x00FF#16))) = .response 0#1 ∧
    (0x0000FFFF#32).toNat ≤ 0xFFFF ∧
    portStep Instance.default (encodeRequest (.parity32 0x0000FFFF#32)) = .response 0#1 ∧
    portStep instFast (encodeRequest (.parity16 (low16 0x0000FFFF#32))) = .response 0#1 := by decide
theorem witness_FoldInvariance :
    low16 0x80000000#32 = 0#16 ∧
    portStep instLow16Zero (encodeRequest (.parity32 0x80000000#32)) = .response 1#1 ∧
    portStep instFast (encodeRequest (.parity16 ((0x80000000#32 >>> 16).setWidth 16))) = .response 1#1 := by decide
theorem witness_ConfigurationChangesNoResponse :
    admits instLow16Zero (encodeRequest (.parity32 0x00010000#32)) = true ∧
    admits instFast (encodeRequest (.parity32 0x00010000#32)) = true ∧
    admits (instKnow8 (some 0#1) false) (encodeRequest (.parity8 0x81#8)) = true := by decide
theorem witness_ZeroPaddingKeepsParity :
    8 ≤ 8 ∧ 8 ≤ 32 ∧
    (0x00B7#16).extractLsb' 8 8 = 0#8 ∧ (0xB700#16).extractLsb' 0 8 = 0#8 := by decide
theorem witness_HalfOfAllOperandsAreOdd : 0 < 1 := by decide
theorem witness_FourByteFormIsTheSameByte : instFast.cfg.strategy = .fast := by decide
theorem witness_VariantsAgree :
    instFast.cfg.strategy = .fast ∧ Instance.default.cfg.strategy = .portable := by decide
theorem witness_SoundnessClauses :
    select16 (instFits8 Know8.empty).cfg (instFits8 Know8.empty).k.k16 = .t3 ∧
    select32 instCascade.cfg instCascade.k.k32 = .t3 ∧
    select32 instLow16Zero.cfg instLow16Zero.k.k32 = .t4 := by decide
theorem witness_DispatchersAreCorrect :
    sound8 instFast.cfg { const := none, onehot0 := true } 0x00#8 = true ∧
    sound16 instFast.cfg { Know16.empty with fits8 := true, sub := { const := some 1#1, onehot0 := false } } 0x0001#16 = true ∧
    sound32 instFast.cfg { Know32.empty with fits16 := true, low16zero := true } 0x00000000#32 = true := by decide
theorem witness_FoldingDisabledOnlyComputes :
    Cfg.foldEnable { strategy := .fast, foldEnable := false, shiftTier := true } = false := by decide
/-- Each clause at each width: R77 and V7 for tier 1, V5 and V4 for tier 2, V8 and V14 for tier 3, V18 for
tier 4, the default knowledge and V20 for tier 5. -/
theorem witness_TierConditionsAndResults :
    Instance.default.cfg.foldEnable = true ∧
    dispatch8 Instance.default.cfg { const := some 0#1, onehot0 := false } 0x81#8 = 0#1 ∧
    dispatch16 Instance.default.cfg { Know16.empty with const := some 1#1, onehot0 := true } 0x8000#16 = 1#1 ∧
    dispatch32 Instance.default.cfg { Know32.empty with const := some 1#1, fits16 := true } 0x00000001#32 = 1#1 ∧
    dispatch8 Instance.default.cfg { const := none, onehot0 := true } 0x00#8 = 0#1 ∧
    dispatch16 Instance.default.cfg { Know16.empty with onehot0 := true } 0x8000#16 = 1#1 ∧
    dispatch32 Instance.default.cfg { Know32.empty with onehot0 := true } 0x00010000#32 = 1#1 ∧
    dispatch16 Instance.default.cfg { Know16.empty with fits8 := true } 0x00B7#16 = 0#1 ∧
    dispatch32 Instance.default.cfg { Know32.empty with fits16 := true } 0x0000BEEF#32 = 1#1 ∧
    dispatch32 Instance.default.cfg { Know32.empty with low16zero := true } 0xBEEF0000#32 = 1#1 ∧
    dispatch8 Instance.default.cfg Know8.empty 0xFF#8 = 0#1 ∧
    dispatch16 Instance.default.cfg Know16.empty 0x8000#16 = 1#1 ∧
    dispatch32 Instance.default.cfg Know32.empty 0xDEADBEEF#32 = 0#1 ∧
    dispatch32 { Instance.default.cfg with shiftTier := false }
      { Know32.empty with low16zero := true } 0xBEEF0000#32 = 1#1 := by decide
theorem witness_UnconnectedLines :
    select8 (instKnow8 (some 0#1) false).cfg (instKnow8 (some 0#1) false).k.k8 = .t1 ∧
    select16 instFast.cfg { Know16.empty with const := some 1#1 } = .t1 ∧
    select32 instFast.cfg { Know32.empty with const := some 1#1 } = .t1 ∧
    7 ∈ (structureFor (instFits8 Know8.empty) .w16).reads ∧ 7 ∈ (structureFor instCascade .w32).reads ∧
    16 ∈ (structureFor instLow16Zero .w32).reads := by decide
/-- One trace of each length. -/
theorem witness_TracesNarrowAndEnd :
    trace8 instFast.cfg instFast.k.k8 = [(.w8, .t5)] ∧
    trace16 (instFits8 Know8.empty).cfg (instFits8 Know8.empty).k.k16 = [(.w16, .t3), (.w8, .t5)] ∧
    (trace32 instCascade.cfg instCascade.k.k32).length = 3 := by decide
theorem witness_SizeOfTheCanonicalTree :
    Instance.default.cfg.strategy = .portable ∧ select8 Instance.default.cfg Know8.empty = .t5 ∧
    select16 Instance.default.cfg Know16.empty = .t5 ∧ select32 Instance.default.cfg Know32.empty = .t5 := by decide
theorem witness_AnyRegroupingIsTheSameFunction :
    ((Net.line 1).xor ((Net.line 2).xor (Net.line 0))).isXorTree = true ∧
    ((Net.line 1).xor ((Net.line 2).xor (Net.line 0))).reads.Perm (List.range 3) := by decide
theorem witness_TextErrorsAndMnemonicCase :
    hexValue? 0 ['1', '0', '0'] = some 0x100 ∧ 2 ^ Width.w8.bits ≤ 0x100 := by decide

end Sys2Proof.Machine.Tests
end

/-! The step of the machine against the pure step of the spec (spec/10_state.md R30). -/

namespace Sys2Proof.Machine

theorem respond_inj {s : State} {d e : Bit} : s.respond d = s.respond e ↔ d = e :=
  ⟨fun h => congrArg State.p h, congrArg s.respond⟩

theorem respondTo_eq_response_iff {inst : Instance} {i : Instr} {e : Bit} :
    respondTo inst i = .response e ↔ soundFor inst i = true ∧ e = dispatchFor inst i := by
  cases h : soundFor inst i with
  | true => simp [respondTo_of_sound h, eq_comm]
  | false => simp [respondTo_of_unsound h]

theorem respondTo_eq_refused_iff {inst : Instance} {i : Instr} {why : Refusal} :
    respondTo inst i = .refused why ↔ soundFor inst i = false ∧ why = .unsoundKnowledge := by
  cases h : soundFor inst i with
  | true => simp [respondTo_of_sound h]
  | false => simp [respondTo_of_unsound h, eq_comm]

/-- When the pure step responds, and with which bit. -/
theorem portStep_eq_response_iff {inst : Instance} {r : Request} {e : Bit} :
    portStep inst r = .response e ↔
      ∃ i, decode r.word = .op i ∧ soundFor inst i = true ∧ e = dispatchFor inst i := by
  cases h : decode r.word with
  | op i => simp [portStep_of_op h, respondTo_eq_response_iff]
  | invalid why => simp [portStep_of_invalid h]

/-- When the pure step refuses, and why. -/
theorem portStep_eq_refused_iff {inst : Instance} {r : Request} {why : Refusal} :
    portStep inst r = .refused why ↔
      (decode r.word = .invalid .reservedWsel ∧ why = .reservedWsel) ∨
      ∃ i, decode r.word = .op i ∧ soundFor inst i = false ∧ why = .unsoundKnowledge := by
  cases h : decode r.word with
  | op i => simp [portStep_of_op h, respondTo_eq_refused_iff]
  | invalid v => cases v; simp [portStep_of_invalid h, @eq_comm _ Refusal.reservedWsel why]

/-- Both steps respond to the same requests, and the machine's step drives the response on `p`. -/
theorem portStep_response_iff_step_next {s : State} {e : Bit} :
    portStep s.inst s.fetch.held = .response e ↔ step s = .next (s.fetch.respond e) := by
  simp only [portStep_eq_response_iff, step_eq_next_iff, respond_inj]

/-- Both steps refuse the same requests for the same reason. -/
theorem portStep_refused_iff_step_refused {s : State} {why : Refusal} :
    portStep s.inst s.fetch.held = .refused why ↔ step s = .refused why := by
  rw [portStep_eq_refused_iff, step_eq_refused_iff]

/-- Settles O17: both steps respond on the same condition with the same bit, and refuse on the same
condition for the same reason. -/
theorem stepRefinesThePureStep : Obligations.StepRefinesThePureStep := fun _ =>
  ⟨fun _ => portStep_response_iff_step_next, fun _ => portStep_refused_iff_step_refused⟩

/-- Settles O7: the step on a decoded request, and the two cases of presenting a request. -/
theorem stepRunsTheDecodedRequest : Obligations.StepRunsTheDecodedRequest :=
  ⟨fun _ _ => step_of_op, fun _ _ _ => fetch_of_cons, fun _ => fetch_of_nil⟩

end Sys2Proof.Machine

/-! The run of a list of requests (spec/70_reset_and_hazards.md R132): each outcome depends on its own
request and on the instance, and on nothing presented before it (spec/20_memory.md R38, R41). -/

namespace Sys2Proof.Machine

/-- The response a completed step drives on `p` is the one the pure step gives. -/
theorem portStep_of_step_next {s t : State} (h : step s = .next t) :
    portStep s.inst s.fetch.held = .response t.p := by
  obtain ⟨i, hi, hs, rfl⟩ := step_eq_next_iff.mp h
  exact portStep_eq_response_iff.mpr ⟨i, hi, hs, rfl⟩

theorem fetch_held_of_cons {s : State} {r : Request} {rest : List Request} (h : s.requests = r :: rest) :
    s.fetch.held = r := by simp [fetch_held, h]

/-- A run of one step more begins with the outcome of the pure step on the request presented next, and
goes on, whichever outcome that is, in a state of the same instance with one request less (R113). -/
theorem outcomes_succ (n : Nat) (s : State) :
    ∃ t : State, t.inst = s.inst ∧ t.requests = s.requests.tail ∧
      s.outcomes (n + 1) = portStep s.inst s.fetch.held :: t.outcomes n := by
  cases h : portStep s.inst s.fetch.held with
  | response e =>
    have hstep := portStep_response_iff_step_next.mp h
    exact ⟨s.fetch.respond e, by simp, by simp, outcomes_of_next hstep⟩
  | refused why =>
    have hstep := portStep_refused_iff_step_refused.mp h
    exact ⟨s.fetch, by simp, by simp, outcomes_of_refused hstep⟩

theorem outcomes_eq_map {rs : List Request} {s : State} (h : s.requests = rs) :
    s.outcomes rs.length = rs.map (portStep s.inst) := by
  induction rs generalizing s with
  | nil => rfl
  | cons r rest ih =>
    obtain ⟨t, hinst, hreq, hout⟩ := outcomes_succ rest.length s
    have htail : t.requests = rest := by rw [hreq, h, List.tail_cons]
    rw [List.length_cons, hout, ih htail, hinst, fetch_held_of_cons h, List.map_cons]

/-- R132: a run is the pure step of its instance, request by request. -/
theorem run_eq_map (s : State) : s.run = s.requests.map (portStep s.inst) :=
  outcomes_eq_map rfl

theorem run_getElem? (s : State) (n : Nat) : s.run[n]? = s.requests[n]?.map (portStep s.inst) := by
  rw [run_eq_map, List.getElem?_map]

/-- R41 for one step: where the same request is presented to the same instance, the response of one state
is the response of every other. -/
theorem step_next_of_same_request {s s' t : State} (hinst : s.inst = s'.inst)
    (hheld : s.fetch.held = s'.fetch.held) (h : step s = .next t) :
    step s' = .next (s'.fetch.respond t.p) := by
  have hport := portStep_of_step_next h
  rw [hinst, hheld] at hport
  exact portStep_response_iff_step_next.mp hport

/-- R41 for one step: a refusal in one state is the same refusal in every other. -/
theorem step_refused_of_same_request {s s' : State} {why : Refusal} (hinst : s.inst = s'.inst)
    (hheld : s.fetch.held = s'.fetch.held) (h : step s = .refused why) : step s' = .refused why := by
  have hport := portStep_refused_iff_step_refused.mpr h
  rw [hinst, hheld] at hport
  exact portStep_refused_iff_step_refused.mp hport

/-- Settles O21: the outcome at a position is a function of the request there, and a step's outcome a
function of the instance and the request presented. -/
theorem equalRequestsGetEqualOutcomes : Obligations.EqualRequestsGetEqualOutcomes := by
  refine ⟨fun s m n heq => ?_, fun s s' hinst hheld => ⟨fun t h => ?_, fun why h => ?_⟩⟩
  · rw [run_getElem?, run_getElem?, heq]
  · exact ⟨s'.fetch.respond t.p, step_next_of_same_request hinst hheld h, respond_p _ _⟩
  · exact step_refused_of_same_request hinst hheld h

/-- Settles O22: at its position and alone, a request gets the outcome of the pure step on it. -/
theorem eachRequestIsAnsweredAsIfAlone : Obligations.EachRequestIsAnsweredAsIfAlone := by
  intro s s' n r hinst hr
  calc s.run[n]?
    _ = some (portStep s'.inst r) := by rw [run_getElem?, hr, hinst, Option.map_some]
    _ = (State.run { s' with requests := [r] })[0]? := by rw [run_getElem?]; rfl

end Sys2Proof.Machine

/-! The request word: the decoder, the encoder and the opcode map (spec/30_encoding.md R42 to R50). -/

namespace Sys2Proof

/-- What the decoder answers under each of the four width select codes (R50). -/
theorem decode_cases (w : RequestWord) :
    (wselOf w = 0#2 ∧ decode w = .op (.parity8 (cut8 (xbusOf w)))) ∨
    (wselOf w = 1#2 ∧ decode w = .op (.parity16 (cut16 (xbusOf w)))) ∨
    (wselOf w = 2#2 ∧ decode w = .op (.parity32 (cut32 (xbusOf w)))) ∨
    (wselOf w = 3#2 ∧ decode w = .invalid .reservedWsel) := by
  rcases wsel_cases (wselOf w) with h | h | h | h <;> simp [decode, h]

theorem decode_eq_invalid_iff {w : RequestWord} : decode w = .invalid .reservedWsel ↔ wselOf w = 3#2 := by
  rcases decode_cases w with ⟨h, hd⟩ | ⟨h, hd⟩ | ⟨h, hd⟩ | ⟨h, hd⟩ <;> simp [h, hd]

theorem decode_eq_parity8_iff {w : RequestWord} :
    decode w = .op (.parity8 (cut8 (xbusOf w))) ↔ wselOf w = 0#2 := by
  rcases decode_cases w with ⟨h, hd⟩ | ⟨h, hd⟩ | ⟨h, hd⟩ | ⟨h, hd⟩ <;> simp [h, hd]

theorem decode_eq_parity16_iff {w : RequestWord} :
    decode w = .op (.parity16 (cut16 (xbusOf w))) ↔ wselOf w = 1#2 := by
  rcases decode_cases w with ⟨h, hd⟩ | ⟨h, hd⟩ | ⟨h, hd⟩ | ⟨h, hd⟩ <;> simp [h, hd]

theorem decode_eq_parity32_iff {w : RequestWord} :
    decode w = .op (.parity32 (cut32 (xbusOf w))) ↔ wselOf w = 2#2 := by
  rcases decode_cases w with ⟨h, hd⟩ | ⟨h, hd⟩ | ⟨h, hd⟩ | ⟨h, hd⟩ <;> simp [h, hd]

/-! ## The operand bits of a word -/

theorem cut8_xbusOf (w : RequestWord) : cut8 (xbusOf w) = w.extractLsb' 0 8 :=
  BitVec.extractLsb'_extractLsb'_of_le (by decide)

theorem cut16_xbusOf (w : RequestWord) : cut16 (xbusOf w) = w.extractLsb' 0 16 :=
  BitVec.extractLsb'_extractLsb'_of_le (by decide)

theorem cut32_xbusOf (w : RequestWord) : cut32 (xbusOf w) = w.extractLsb' 0 32 :=
  BitVec.extractLsb'_eq_self

/-! ## Encoding and decoding again -/

@[simp] theorem wselOf_encode (i : Instr) : wselOf (encode i) = wselCode i.width := wselOf_word _

@[simp] theorem xbusOf_encode (i : Instr) : xbusOf (encode i) = busOperand i := xbusOf_word _

@[simp] theorem cut8_setWidth (x : BitVec 8) : cut8 (x.setWidth 32) = x := by
  simp [cut8, BitVec.extractLsb'_setWidth_of_le, BitVec.extractLsb'_eq_self]

@[simp] theorem cut16_setWidth (x : BitVec 16) : cut16 (x.setWidth 32) = x := by
  simp [cut16, BitVec.extractLsb'_setWidth_of_le, BitVec.extractLsb'_eq_self]

@[simp] theorem cut32_eq (b : Bus) : cut32 b = b := BitVec.extractLsb'_eq_self

/-- R50: decoding the encoding of an operation is that operation with that operand. -/
@[simp] theorem decode_encode (i : Instr) : decode (encode i) = .op i := by
  cases i <;> simp [decode, wselCode, busOperand, Instr.width]

theorem encodesCanonically : ∀ i, Laws.EncodesCanonically.Statement i
  | .parity8 x => Laws.EncodesCanonically.parity8 x
  | .parity16 x => Laws.EncodesCanonically.parity16 x
  | .parity32 x => Laws.EncodesCanonically.parity32 x

theorem encode_canonical (i : Instr) : (Request.ofWord (encode i)).canonical = true := by
  obtain ⟨_, hcanon, _, _, hword⟩ := encodesCanonically i
  rw [hword, hcanon]

/-- A word is an operation's encoding where it carries the width's code and the zero-extended operand. -/
theorem encode_eq_iff {i : Instr} {w : RequestWord} :
    encode i = w ↔ wselCode i.width = wselOf w ∧ busOperand i = xbusOf w := by
  constructor
  · rintro rfl
    simp
  · rintro ⟨hsel, hbus⟩
    rw [encode, encodeRequest, hsel, hbus]
    exact word_ofWord w

/-- Zero-extending the low `n` bits of a value gives it back where the bits above them are zero. -/
theorem setWidth_low_eq_iff {m n : Nat} (b : BitVec (m + n)) :
    (b.extractLsb' 0 n).setWidth (m + n) = b ↔ b.extractLsb' n m = 0#m := by
  have hb : b.extractLsb' n m ++ b.extractLsb' 0 n = b := BitVec.extractLsb'_append_extractLsb'
  have hlow : (b.extractLsb' 0 n).setWidth (m + n) = 0#m ++ b.extractLsb' 0 n := by
    ext j hj
    simp [BitVec.getElem_append]
  calc (b.extractLsb' 0 n).setWidth (m + n) = b
    _ ↔ 0#m ++ b.extractLsb' 0 n = b.extractLsb' n m ++ b.extractLsb' 0 n := by rw [hlow, hb]
    _ ↔ b.extractLsb' n m = 0#m := (BitVec.append_left_inj _).trans eq_comm

theorem wselCode_width_of_decode {w : RequestWord} {i : Instr} (h : decode w = .op i) :
    wselCode i.width = wselOf w := by
  rcases decode_cases w with ⟨hc, hd⟩ | ⟨hc, hd⟩ | ⟨hc, hd⟩ | ⟨hc, hd⟩ <;> rw [hd] at h <;> cases h <;>
    exact hc.symm

/-- R46: the bus of a canonical word carries nothing but the zero-extended operand. -/
theorem busOperand_eq_xbusOf_iff {w : RequestWord} {i : Instr} (h : decode w = .op i) :
    busOperand i = xbusOf w ↔ (Request.ofWord w).canonical = true := by
  rcases decode_cases w with ⟨hc, hd⟩ | ⟨hc, hd⟩ | ⟨hc, hd⟩ | ⟨hc, hd⟩ <;> rw [hd] at h <;> cases h
  · simpa [busOperand, cut8, Request.canonical, Request.ofWord, hc] using
      setWidth_low_eq_iff (m := 24) (n := 8) (xbusOf w)
  · simpa [busOperand, cut16, Request.canonical, Request.ofWord, hc] using
      setWidth_low_eq_iff (m := 16) (n := 16) (xbusOf w)
  · simp [Request.canonical, Request.ofWord, Request.legal, busOperand, hc]

/-- Settles O5: the decoder and encoder as R50 writes them, and both round trips. -/
theorem decodeAndEncodeAgree : Obligations.DecodeAndEncodeAgree := by
  refine ⟨fun w => ?_, fun _ => rfl, fun _ => rfl, fun _ => rfl, decode_encode, fun w i h => ?_⟩
  · rw [← cut8_xbusOf, ← cut16_xbusOf, ← cut32_xbusOf]
    exact ⟨decode_eq_parity8_iff.mpr, decode_eq_parity16_iff.mpr, decode_eq_parity32_iff.mpr,
      decode_eq_invalid_iff.mpr⟩
  · refine ⟨?_, encode_canonical i, by rw [decode_encode, h]⟩
    rw [encode_eq_iff, busOperand_eq_xbusOf_iff h, and_iff_right (wselCode_width_of_decode h)]

/-! ## The opcode map (R49) -/

/-- The mask of the opcode map keeps the width select and clears the bus. -/
theorem and_mask_eq_iff (w : RequestWord) (c : Wsel) : w &&& 0x300000000#34 = c ++ 0#32 ↔ wselOf w = c := by
  have hmask : w &&& 0x300000000#34 = wselOf w ++ 0#32 :=
    calc w &&& 0x300000000#34
      _ = (wselOf w ++ xbusOf w) &&& (BitVec.allOnes 2 ++ 0#32) := congrArg (· &&& _) (word_ofWord w).symm
      _ = (wselOf w &&& BitVec.allOnes 2) ++ (xbusOf w &&& 0#32) := BitVec.and_append
      _ = wselOf w ++ 0#32 := by rw [BitVec.and_allOnes, BitVec.and_zero]
  rw [hmask, BitVec.append_left_inj]

/-- A word selects the row it decodes to, and no other. -/
theorem and_mask_eq_bits_iff {w : RequestWord} {r : Row} : w &&& r.mask = r.bits ↔ (decode w).row = r := by
  have hsel : w &&& r.mask = r.bits ↔ wselOf w = r.bits.extractLsb' 32 2 := by
    cases r
    exacts [and_mask_eq_iff w 0#2, and_mask_eq_iff w 1#2, and_mask_eq_iff w 2#2, and_mask_eq_iff w 3#2]
  rw [hsel]
  rcases decode_cases w with ⟨hc, hd⟩ | ⟨hc, hd⟩ | ⟨hc, hd⟩ | ⟨hc, hd⟩ <;> rw [hc, hd] <;>
    cases r <;> simp [Decoded.row, Row.bits]

/-- Settles O4: the row a word selects is the row of what it decodes to, and each row's mask and match
test the width select. -/
theorem opcodeMapRowsAreDisjointAndCover : Obligations.OpcodeMapRowsAreDisjointAndCover := by
  intro w
  simp only [and_mask_eq_bits_iff, ← cut8_xbusOf, ← cut16_xbusOf, ← cut32_xbusOf, decode_eq_parity8_iff,
    decode_eq_parity16_iff, decode_eq_parity32_iff, decode_eq_invalid_iff]
  exact ⟨existsUnique_eq', and_mask_eq_iff w 0#2, and_mask_eq_iff w 1#2, and_mask_eq_iff w 2#2,
    and_mask_eq_iff w 3#2⟩

theorem width_bits_eq_of_wselOf_encode (i : Instr) : i.width.bits = 8 * 2 ^ (wselOf (encode i)).toNat := by
  obtain ⟨_, _, _, hwidth, _⟩ := encodesCanonically i
  rwa [encode, wselOf_word]

/-- Settles O3: each encoding carries its width's code, and only the reserved code decodes as invalid. -/
theorem widthSelectCodes : Obligations.WidthSelectCodes :=
  ⟨fun _ => wselOf_encode _, fun _ => wselOf_encode _, fun _ => wselOf_encode _,
    fun _ => decode_eq_invalid_iff.symm, width_bits_eq_of_wselOf_encode⟩

/-- Settles O2, by evaluating the decoder on the six words. -/
theorem wordsOfTheOpcodeMapDecode : Obligations.WordsOfTheOpcodeMapDecode := by
  unfold Obligations.WordsOfTheOpcodeMapDecode
  decide

end Sys2Proof

/-! The outcome of a request as its two ports are driven: the width select and the operand bits decide it,
and the bus bits above the operand do not (spec/30_encoding.md R44 to R46). -/

namespace Sys2Proof.Machine

variable {inst : Instance} {r : Request}

theorem portStep_of_wsel0 (h : r.wsel = 0#2) : portStep inst r = respondTo inst (.parity8 (cut8 r.xbus)) := by
  simpa using portStep_of_op (decode_eq_parity8_iff.mpr (by rwa [wselOf_word]))

theorem portStep_of_wsel1 (h : r.wsel = 1#2) : portStep inst r = respondTo inst (.parity16 (cut16 r.xbus)) := by
  simpa using portStep_of_op (decode_eq_parity16_iff.mpr (by rwa [wselOf_word]))

theorem portStep_encodeRequest (i : Instr) : portStep inst (encodeRequest i) = respondTo inst i :=
  portStep_of_op (decode_encode i)

theorem decode_word_of_reserved (h : r.wsel = 3#2) : decode r.word = .invalid .reservedWsel :=
  decode_eq_invalid_iff.mpr (by rwa [wselOf_word])

/-- Settles O6: the outcome is the answer to the operand cut from the bus, and the cut drops the upper
bits. -/
theorem ignoredBusBitsDoNotMatter : Obligations.IgnoredBusBitsDoNotMatter := by
  intro inst c b b'
  refine ⟨fun hc hcut => ?_, fun hc hcut => ?_, fun x => ?_, fun x => ?_⟩
  · rw [portStep_of_wsel0 hc, portStep_of_wsel0 hc, hcut]
  · rw [portStep_of_wsel1 hc, portStep_of_wsel1 hc, hcut]
  · have hcut : cut8 (b.extractLsb' 8 24 ++ x) = x := BitVec.extractLsb'_append_eq_right
    rw [portStep_of_wsel0 rfl, portStep_encodeRequest, hcut]
  · have hcut : cut16 (b.extractLsb' 16 16 ++ x) = x := BitVec.extractLsb'_append_eq_right
    rw [portStep_of_wsel1 rfl, portStep_encodeRequest, hcut]

/-- Settles O14: the reserved code decodes as invalid whatever the bus carries, so both steps refuse it. -/
theorem reservedCodeIsRefused : Obligations.ReservedCodeIsRefused :=
  ⟨fun _ _ => portStep_of_invalid (decode_word_of_reserved rfl),
    fun _ h => step_of_invalid (decode_word_of_reserved h)⟩

theorem decodeTableWord_eq_some_iff {nbits w : Nat} {i : Instr} :
    decodeTableWord nbits w = some i ↔ decode (tableWord nbits w) = .op i := by
  unfold decodeTableWord
  split <;> simp [*]

theorem withFetchWord_fetch (s : State) (nbits w : Nat) :
    (s.withFetchWord nbits w).fetch =
      { s with wsel := wselOf (tableWord nbits w), xbus := xbusOf (tableWord nbits w) } :=
  fetch_of_cons (withFetchWord_requests s nbits w)

theorem withFetchWord_fetch_held_word (s : State) (nbits w : Nat) :
    (s.withFetchWord nbits w).fetch.held.word = tableWord nbits w := by
  rw [fetch_held_of_cons (withFetchWord_requests s nbits w), word_ofWord]

/-- Settles O8: the presented word is the one the step decodes. -/
theorem presentedTableWordRunsItsOperation : Obligations.PresentedTableWordRunsItsOperation := by
  intro s nbits w i h
  have hd : decode (s.withFetchWord nbits w).fetch.held.word = .op i := by
    rw [withFetchWord_fetch_held_word, decodeTableWord_eq_some_iff.mp h]
  rw [step_of_op hd, withFetchWord_fetch]

/-- Settles O1: the fields of the state after reset, and its step on the request `parity8 0x00` that stands
on the ports. -/
theorem resetAnswersZeroOnTheDefaultInstance : Obligations.ResetAnswersZeroOnTheDefaultInstance := by
  have hstep : step State.reset = .next State.reset :=
    step_eq_next_iff.mpr ⟨.parity8 0#8, by decide, by decide, by decide⟩
  exact ⟨rfl, rfl, rfl, rfl, rfl, rfl, rfl, hstep⟩

end Sys2Proof.Machine

/-! Request lines as text (spec/30_encoding.md R53): what an operation prints is read back as that
operation. -/

namespace Sys2Proof.Machine

/-! ## Hexadecimal literals -/

theorem hexAlphabet_eq :
    hexAlphabet = ['0', '1', '2', '3', '4', '5', '6', '7', '8', '9', 'A', 'B', 'C', 'D', 'E', 'F'] := rfl

theorem hexDigit?_hexChar {d : Nat} (h : d < 16) : hexDigit? (hexChar d) = some d := by
  revert d; decide

theorem hexValue?_append (acc : Nat) (l l' : List Char) :
    hexValue? acc (l ++ l') = (hexValue? acc l).bind (hexValue? · l') := by
  induction l generalizing acc with
  | nil => rfl
  | cons c cs ih => cases h : hexDigit? c <;> simp [hexValue?, h, ih]

@[simp] theorem length_hexDigits (n v : Nat) : (hexDigits n v).length = n := by
  induction n generalizing v with
  | zero => rfl
  | succ n ih => simp [hexDigits, ih]

/-- Reading `n` printed digits gives the value back, cut to those digits. -/
theorem hexValue?_hexDigits (n v : Nat) : hexValue? 0 (hexDigits n v) = some (v % 16 ^ n) := by
  induction n generalizing v with
  | zero => simp [hexDigits, hexValue?, Nat.mod_one]
  | succ n ih =>
    have hdigit : hexDigit? (hexChar (v % 16)) = some (v % 16) := hexDigit?_hexChar (Nat.mod_lt _ (by decide))
    have hmod : v % 16 ^ (n + 1) = 16 * (v / 16 % 16 ^ n) + v % 16 := by
      rw [Nat.pow_succ', Nat.mod_mul, Nat.add_comm]
    simp [hexDigits, hexValue?_append, ih, hexValue?, hdigit, hmod]

theorem literalDigits?_of_ne_nil {ds : List Char} (h : ds ≠ []) :
    literalDigits? ('0' :: 'x' :: ds) = some ds := by
  obtain ⟨d, ds', rfl⟩ := List.exists_cons_of_ne_nil h
  rfl

theorem hexDigits_ne_nil (w : Width) (v : Nat) : hexDigits (w.bits / 4) v ≠ [] := by
  rw [← List.length_pos_iff, length_hexDigits]
  cases w <;> decide

theorem sixteen_pow_digits (w : Width) : 16 ^ (w.bits / 4) = 2 ^ w.bits := by
  cases w <;> rfl

/-- The literal of `W/4` printed digits is read as the value they were printed from. -/
theorem parseOperand_hexDigits {w : Width} {v : Nat} (h : v < 2 ^ w.bits) :
    parseOperand w ('0' :: 'x' :: hexDigits (w.bits / 4) v) = .ok v := by
  have hvalue : hexValue? 0 (hexDigits (w.bits / 4) v) = some v := by
    rw [hexValue?_hexDigits, sixteen_pow_digits, Nat.mod_eq_of_lt h]
  simp [parseOperand, literalDigits?_of_ne_nil (hexDigits_ne_nil w v), hvalue, h]

/-- A literal whose value needs more than `W` bits is refused as too wide, however it is written. -/
theorem parseOperand_of_tooWide {w : Width} {d : Char} {ds : List Char} {v : Nat}
    (hv : hexValue? 0 (d :: ds) = some v) (hwide : 2 ^ w.bits ≤ v) :
    parseOperand w ('0' :: 'x' :: d :: ds) = .error .literalTooWide := by
  simp [parseOperand, literalDigits?, hv, hwide]

/-! ## Words -/

/-- A character that neither ends a word nor begins a comment. -/
def isWordChar (c : Char) : Prop := c ≠ ';' ∧ isSpace c = false ∧ c ≠ openChar ∧ c ≠ closeChar

theorem isWordChar_of_mem_hexAlphabet : ∀ c ∈ hexAlphabet, isWordChar c := by
  simp [hexAlphabet_eq, isWordChar, isSpace, openChar, closeChar]

theorem isWordChar_of_mem_mnemonicChars (w : Width) : ∀ c ∈ mnemonicChars w, isWordChar c := by
  cases w <;> simp [mnemonicChars, isWordChar, isSpace, openChar, closeChar]

theorem hexChar_mem_hexAlphabet {d : Nat} (h : d < 16) : hexChar d ∈ hexAlphabet := by
  revert d; decide

theorem mem_hexAlphabet_of_mem_hexDigits {n v : Nat} {c : Char} (hc : c ∈ hexDigits n v) :
    c ∈ hexAlphabet := by
  induction n generalizing v with
  | zero => cases hc
  | succ n ih =>
    rcases List.mem_append.mp hc with hc | hc
    · exact ih hc
    · rw [List.mem_singleton.mp hc]
      exact hexChar_mem_hexAlphabet (Nat.mod_lt _ (by decide))

theorem isWordChar_of_mem_literal {n v : Nat} : ∀ c ∈ '0' :: 'x' :: hexDigits n v, isWordChar c := by
  refine List.forall_mem_cons.mpr ⟨?_, List.forall_mem_cons.mpr ⟨?_, fun c hc => ?_⟩⟩
  · simp [isWordChar, isSpace, openChar, closeChar]
  · simp [isWordChar, isSpace, openChar, closeChar]
  · exact isWordChar_of_mem_hexAlphabet c (mem_hexAlphabet_of_mem_hexDigits hc)

/-- The characters of a word are taken into the word in progress. -/
theorem wordsFrom_append {l : List Char} (h : ∀ c ∈ l, isWordChar c) (acc rest : List Char) :
    wordsFrom acc (l ++ rest) = wordsFrom (l.reverse ++ acc) rest := by
  induction l generalizing acc with
  | nil => rfl
  | cons c cs ih =>
    obtain ⟨⟨_, hspace, hopen, hclose⟩, hcs⟩ := List.forall_mem_cons.mp h
    simp [wordsFrom, hspace, hopen, hclose, ih hcs]

theorem endWord_reverse {l : List Char} (h : l ≠ []) (rest : List (List Char)) :
    endWord l.reverse rest = l :: rest := by
  obtain ⟨c, cs, hl⟩ := List.exists_cons_of_ne_nil (List.reverse_ne_nil_iff.mpr h)
  rw [hl, endWord, ← hl, List.reverse_reverse]
  rintro ⟨⟩

theorem wordsFrom_word {l : List Char} (h : ∀ c ∈ l, isWordChar c) (hne : l ≠ []) :
    wordsFrom [] l = [l] := by
  simpa [wordsFrom, endWord_reverse hne] using wordsFrom_append h [] []

theorem wordsFrom_word_space {l : List Char} (h : ∀ c ∈ l, isWordChar c) (hne : l ≠ []) (rest : List Char) :
    wordsFrom [] (l ++ ' ' :: rest) = l :: wordsFrom [] rest := by
  have hspace : isSpace ' ' = true := rfl
  rw [wordsFrom_append h, List.append_nil, wordsFrom, if_pos hspace, endWord_reverse hne]

theorem dropComment_eq_self {l : List Char} (h : ∀ c ∈ l, c ≠ ';') : dropComment l = l :=
  List.takeWhile_eq_self_iff.mpr (by simpa using h)

/-- The words of a line of two words. -/
theorem lineWords_pair {u v : List Char} (hu : ∀ c ∈ u, isWordChar c) (hv : ∀ c ∈ v, isWordChar c)
    (hune : u ≠ []) (hvne : v ≠ []) : lineWords (u ++ ' ' :: v) = [u, v] := by
  have hcomment : ∀ c ∈ u ++ ' ' :: v, c ≠ ';' := by
    intro c hc
    rcases List.mem_append.mp hc with hc | hc
    · exact (hu c hc).1
    · rcases List.mem_cons.mp hc with rfl | hc
      · decide
      · exact (hv c hc).1
  rw [lineWords, dropComment_eq_self hcomment, wordsFrom_word_space hu hune, wordsFrom_word hv hvne]

/-! ## Mnemonics -/

theorem mnemonic?_mnemonicChars (w : Width) : mnemonic? (mnemonicChars w) = some w := by
  cases w <;> decide

theorem mnemonic?_toUpper (word : List Char) : mnemonic? (word.map Char.toUpper) = mnemonic? word := by
  have hlower : Char.toLower ∘ Char.toUpper = Char.toLower := funext Char.toLower_toUpper_eq_toLower
  rw [mnemonic?, List.map_map, hlower, mnemonic?]

/-- The opcode table writes the mnemonics in upper case. -/
theorem mnemonic_toList (i : Instr) : i.mnemonic.toList = (mnemonicChars i.width).map Char.toUpper := by
  cases i <;> simp [Instr.mnemonic, Instr.width, mnemonicChars]

theorem mnemonic?_mnemonic (i : Instr) : mnemonic? i.mnemonic.toList = some i.width := by
  rw [mnemonic_toList, mnemonic?_toUpper, mnemonic?_mnemonicChars]

/-! ## Request lines -/

theorem parseWords_pair {m lit : List Char} {w : Width} {v : Nat} (hm : mnemonic? m = some w)
    (hv : parseOperand w lit = .ok v) :
    parseWords [m, lit] = .ok { width := w, literal := v, expected := none } := by
  simp [parseWords, hm, hv, parseExpected]

theorem operand_lt (i : Instr) : i.operand < 2 ^ i.width.bits := by
  cases i <;> exact BitVec.isLt _

theorem parseLine_printInstr (i : Instr) :
    parseLine (printInstr i) = .ok { width := i.width, literal := i.operand, expected := none } := by
  have hwords : lineWords (printInstr i) =
      [mnemonicChars i.width, '0' :: 'x' :: hexDigits (i.width.bits / 4) i.operand] := by
    rw [printInstr, List.append_assoc]
    refine lineWords_pair (isWordChar_of_mem_mnemonicChars _) isWordChar_of_mem_literal ?_
      (List.cons_ne_nil _ _)
    cases i <;> exact List.cons_ne_nil _ _
  rw [parseLine, hwords]
  exact parseWords_pair (mnemonic?_mnemonicChars _) (parseOperand_hexDigits (operand_lt i))

theorem lineInstr_operand (i : Instr) (e : Option Bit) :
    lineInstr { width := i.width, literal := i.operand, expected := e } = i := by
  cases i <;> simp [lineInstr, Instr.width, Instr.operand]

theorem assemble_of_lt {l : Line} (h : l.literal < 2 ^ l.width.bits) :
    assemble l = .ok (encodeRequest (lineInstr l)) := by simp [assemble, Line.fits, h]

theorem assemble_of_le {l : Line} (h : 2 ^ l.width.bits ≤ l.literal) :
    assemble l = .error .literalTooWide := by simp [assemble, Line.fits, h]

theorem lt_iff_exists_assemble (l : Line) : l.literal < 2 ^ l.width.bits ↔ ∃ r, assemble l = .ok r := by
  rcases Nat.lt_or_ge l.literal (2 ^ l.width.bits) with h | h
  · simp [h, assemble_of_lt h]
  · simp [h, assemble_of_le h]

/-- Settles O44: the printed line is read as the operation's width and operand, and an operand fits. -/
theorem printedLinesAssemble : Obligations.PrintedLinesAssemble := by
  intro i
  rw [parseLine_printInstr, Except.bind, assemble_of_lt (operand_lt i), lineInstr_operand]

/-- Settles O45: a literal is compared with `2 ^ W`, and a mnemonic is compared in lower case. -/
theorem textErrorsAndMnemonicCase : Obligations.TextErrorsAndMnemonicCase :=
  ⟨fun _ _ _ _ => parseOperand_of_tooWide, lt_iff_exists_assemble, mnemonic?_mnemonic, mnemonic?_toUpper⟩

end Sys2Proof.Machine

/-! The laws of `popcount`, `par` and `xorAll` on values of every width (spec/40_operations.md R58, R68, R69;
spec/95_test_vectors.md Part 2.4). -/

namespace Sys2Proof.Machine

variable {w : Nat}

/-! ## The three forms of the parity bit (R58) -/

theorem popcountBelow_eq_sum (v : BitVec w) (n : Nat) :
    popcountBelow v n = ∑ i ∈ Finset.range n, (v.getLsbD i).toNat := by
  induction n with
  | zero => rfl
  | succ n ih => rw [popcountBelow_succ, Finset.sum_range_succ, ih]

theorem popcount_eq_sum (v : BitVec w) : popcount v = ∑ i ∈ Finset.range w, (v.getLsbD i).toNat :=
  popcountBelow_eq_sum v w

theorem par_eq_ofNat_popcount (v : BitVec w) : par v = BitVec.ofNat 1 (popcount v) :=
  BitVec.eq_of_toNat_eq (by simp [par_toNat])

theorem par_eq_one_iff {v : BitVec w} : par v = 1#1 ↔ Odd (popcount v) := by
  rw [← BitVec.toNat_inj, par_toNat, Nat.odd_iff, BitVec.toNat_ofNat]

theorem par_eq_zero_iff {v : BitVec w} : par v = 0#1 ↔ Even (popcount v) := by
  rw [← BitVec.toNat_inj, par_toNat, Nat.even_iff, BitVec.toNat_ofNat]

/-- On one wire, adding is XOR. -/
theorem ofNat_one_add (m n : Nat) : BitVec.ofNat 1 (m + n) = BitVec.ofNat 1 m ^^^ BitVec.ofNat 1 n := by
  have hadd : ∀ a b : Bit, a + b = a ^^^ b := by decide
  rw [BitVec.ofNat_add, hadd]

theorem bitAt_eq_ofNat (v : BitVec w) (i : Nat) : bitAt v i = BitVec.ofNat 1 (v.getLsbD i).toNat := by
  cases h : v.getLsbD i <;> simp [bitAt, h]

theorem xorBelow_eq_ofNat (v : BitVec w) (n : Nat) : xorBelow v n = BitVec.ofNat 1 (popcountBelow v n) := by
  induction n with
  | zero => rfl
  | succ n ih =>
    rw [xorBelow_succ, ih, popcountBelow_succ, ofNat_one_add, bitAt_eq_ofNat, BitVec.xor_comm]

theorem par_eq_xorAll (v : BitVec w) : par v = xorAll v := by
  rw [par_eq_ofNat_popcount, xorAll, xorBelow_eq_ofNat, popcount]

/-! ## The XOR law (R69) -/

@[simp] theorem bitAt_xor (a b : BitVec w) (i : Nat) : bitAt (a ^^^ b) i = bitAt a i ^^^ bitAt b i := by
  simp [bitAt]

theorem xorBelow_xor (a b : BitVec w) (n : Nat) :
    xorBelow (a ^^^ b) n = xorBelow a n ^^^ xorBelow b n := by
  induction n with
  | zero => simp
  | succ n ih => simp only [xorBelow_succ, ih, bitAt_xor]; ac_rfl

theorem par_xor (a b : BitVec w) : par (a ^^^ b) = par a ^^^ par b := by
  simp only [par_eq_xorAll, xorAll, xorBelow_xor]

/-! ## Zero and splitting a value in two (R68, R69) -/

@[simp] theorem popcount_zero : popcount 0#w = 0 := by simp [popcount_eq_sum]

@[simp] theorem par_zero : par 0#w = 0#1 := by simp [par_eq_ofNat_popcount]

theorem popcount_eq_zero_iff {v : BitVec w} : popcount v = 0 ↔ v = 0#w := by
  refine ⟨fun h => BitVec.eq_of_getLsbD_eq fun i hi => ?_, fun h => h ▸ popcount_zero⟩
  rw [popcount_eq_sum, Finset.sum_eq_zero_iff] at h
  simpa using h i (Finset.mem_range.mpr hi)

/-- The count of a value is the count of its low `n` bits and that of the bits above them. -/
theorem popcount_split {n : Nat} (hn : n ≤ w) (v : BitVec w) :
    popcount v = popcount (v.extractLsb' 0 n) + popcount (v.extractLsb' n (w - n)) := by
  have hlow : ∀ i ∈ Finset.range n, ((v.extractLsb' 0 n).getLsbD i).toNat = (v.getLsbD i).toNat := by
    simp +contextual
  have hhigh : ∀ i ∈ Finset.range (w - n),
      ((v.extractLsb' n (w - n)).getLsbD i).toNat = (v.getLsbD (n + i)).toNat := by
    simp +contextual
  calc popcount v
    _ = ∑ i ∈ Finset.range (n + (w - n)), (v.getLsbD i).toNat := by
      rw [Nat.add_sub_cancel' hn, popcount_eq_sum]
    _ = _ := by
      rw [Finset.sum_range_add, popcount_eq_sum, popcount_eq_sum, Finset.sum_congr rfl hlow,
        Finset.sum_congr rfl hhigh]

theorem par_split {n : Nat} (hn : n ≤ w) (v : BitVec w) :
    par v = par (v.extractLsb' 0 n) ^^^ par (v.extractLsb' n (w - n)) := by
  simp only [par_eq_ofNat_popcount, popcount_split hn v, ofNat_one_add]

theorem par_of_high_zero {n : Nat} (hn : n ≤ w) {v : BitVec w} (h : v.extractLsb' n (w - n) = 0#(w - n)) :
    par v = par (v.extractLsb' 0 n) := by
  rw [par_split hn, h, par_zero, BitVec.xor_zero]

theorem par_of_low_zero {n : Nat} (hn : n ≤ w) {v : BitVec w} (h : v.extractLsb' 0 n = 0#n) :
    par v = par (v.extractLsb' n (w - n)) := by
  rw [par_split hn, h, par_zero, BitVec.zero_xor]

/-- A value below `2 ^ n` has the parity of its low `n` bits. -/
theorem par_of_toNat_lt {n : Nat} (hn : n ≤ w) {v : BitVec w} (h : v.toNat < 2 ^ n) :
    par v = par (v.extractLsb' 0 n) := by
  refine par_of_high_zero hn (BitVec.eq_of_toNat_eq ?_)
  simp [Nat.shiftRight_eq_div_pow, Nat.div_eq_of_lt h]

theorem par_zext {n : Nat} (hn : w ≤ n) (v : BitVec w) : par (zext n v) = par v := by
  have hlow : (zext n v).extractLsb' 0 w = v := by
    rw [zext, BitVec.extractLsb'_setWidth_of_le (by omega), BitVec.extractLsb'_eq_self]
  have hsmall : (zext n v).toNat < 2 ^ w := by
    rw [zext, BitVec.toNat_setWidth_of_le hn]
    exact v.isLt
  rw [par_of_toNat_lt hn hsmall, hlow]

/-- The fold of the two halves keeps the parity. -/
theorem par_halves {n : Nat} (v : BitVec (2 * n)) :
    par v = par (v.extractLsb' n n ^^^ v.extractLsb' 0 n) := by
  have hsub : 2 * n - n = n := by omega
  rw [par_split (n := n) (by omega), hsub, par_xor, BitVec.xor_comm]

/-- Settles O29: the bits that are zero add nothing to the parity of the others. -/
theorem zeroPaddingKeepsParity : Obligations.ZeroPaddingKeepsParity :=
  ⟨fun _ _ v hn => par_zext hn v, fun _ _ _ hn => par_of_high_zero hn, fun _ _ _ hn => par_of_low_zero hn⟩

/-! ## Permutation and complement of the bits (R69) -/

theorem popcount_eq_sum_fin (v : BitVec w) : popcount v = ∑ i : Fin w, (v.getLsb i).toNat := by
  rw [popcount_eq_sum, Finset.sum_range]
  rfl

theorem popcount_permute (v : BitVec w) (σ : Equiv.Perm (Fin w)) :
    popcount (BitVec.ofFnLE fun j => v.getLsb (σ j)) = popcount v := by
  simp only [popcount_eq_sum_fin, BitVec.getLsb_ofFnLE]
  exact Equiv.sum_comp σ fun i => (v.getLsb i).toNat

theorem par_permute (v : BitVec w) (σ : Equiv.Perm (Fin w)) :
    par (BitVec.ofFnLE fun j => v.getLsb (σ j)) = par v := by
  rw [par, popcount_permute, par]

theorem popcount_allOnes : popcount (BitVec.allOnes w) = w := by
  have hbit : ∀ i ∈ Finset.range w, ((BitVec.allOnes w).getLsbD i).toNat = 1 := by simp +contextual
  rw [popcount_eq_sum, Finset.sum_congr rfl hbit]
  simp

/-- Complement is the XOR with all ones, whose parity is that of the width. -/
theorem par_not (v : BitVec w) : par (~~~v) = par v ^^^ BitVec.ofNat 1 (w % 2) := by
  have hones : par (BitVec.allOnes w) = BitVec.ofNat 1 (w % 2) := by rw [par, popcount_allOnes]
  rw [← BitVec.xor_allOnes, par_xor, hones]

theorem par_not_of_even (hw : Even w) (v : BitVec w) : par (~~~v) = par v := by
  rw [par_not, Nat.even_iff.mp hw, BitVec.xor_zero]

/-- Settles O30: the parity of a XOR, of which the fold of the halves and the complement are cases, and of
a permuted sum. -/
theorem xorLaw : Obligations.XorLaw :=
  ⟨fun _ => par_xor, fun _ => par_halves, fun _ => par_permute, fun _ => par_not,
    par_not_of_even (by decide), par_not_of_even (by decide), par_not_of_even (by decide)⟩

/-! ## Half of all operands are odd (95_test_vectors.md Part 2.4) -/

theorem popcount_one (hw : 0 < w) : popcount 1#w = 1 := by
  rw [popcount_eq_sum, Finset.sum_eq_single_of_mem 0 (Finset.mem_range.mpr hw)]
  · simp [hw]
  · intro i _ hi
    simp [hi]

theorem par_one (hw : 0 < w) : par 1#w = 1#1 := by rw [par, popcount_one hw]

/-- Flipping bit 0 flips the parity. -/
theorem par_eq_one_iff_par_flip (hw : 0 < w) (v : BitVec w) : par v = 1#1 ↔ par (v ^^^ 1#w) ≠ 1#1 := by
  have hflip : ∀ b : Bit, b = 1#1 ↔ b ^^^ 1#1 ≠ 1#1 := by decide
  rw [par_xor, par_one hw, hflip]

/-- Flipping bit 0 pairs the values of odd parity with those of even parity. -/
theorem card_odd_eq_card_even (hw : 0 < w) :
    (Finset.univ.filter fun v : BitVec w => par v = 1#1).card =
      (Finset.univ.filter fun v : BitVec w => par v ≠ 1#1).card := by
  have hinv : Function.Involutive fun v : BitVec w => v ^^^ 1#w := fun v => by simp
  refine Finset.card_bijective _ hinv.bijective fun v => ?_
  rw [Finset.mem_filter_univ, Finset.mem_filter_univ, par_eq_one_iff_par_flip hw]

/-- Settles O31: as many values are odd as are even, and there are `2 ^ w` in all. -/
theorem halfOfAllOperandsAreOdd : Obligations.HalfOfAllOperandsAreOdd := by
  intro w hw
  calc 2 * (Finset.univ.filter fun v : BitVec w => par v = 1#1).card
    _ = (Finset.univ.filter fun v : BitVec w => par v = 1#1).card +
        (Finset.univ.filter fun v : BitVec w => par v ≠ 1#1).card := by
      rw [← card_odd_eq_card_even hw, two_mul]
    _ = Fintype.card (BitVec w) := Finset.card_filter_add_card_filter_not _
    _ = 2 ^ w := by rw [← FinEnum.card_eq_fintypeCard, FinEnum.card_bitVec]

end Sys2Proof.Machine

/-! The computation strategy and the dispatchers return the parity of the operand (spec/42_parity_tree.md R95
to R104; spec/41_dispatcher.md R77 to R85, R88). -/

namespace Sys2Proof.Machine

/-! ## The stages and `computeW` -/

theorem par_fold32 (v : BitVec 32) : par (fold32 v) = par v := (par_halves (n := 16) v).symm

theorem par_fold16 (v : BitVec 16) : par (fold16 v) = par v := (par_halves (n := 8) v).symm

theorem par_fold8 (b : BitVec 8) : par (fold8 b) = par b := (par_halves (n := 4) b).symm

theorem par_fold4 (n : BitVec 4) : par (fold4 n) = par n := (par_halves (n := 2) n).symm

theorem fold2_eq_par (m : BitVec 2) : fold2 m = par m := by
  simp [par_eq_xorAll, xorAll, xorBelow, fold2]

theorem leaf8_eq_par (b : BitVec 8) : leaf8 b = par b := by
  simp [par_eq_xorAll, xorAll, xorBelow, leaf8, BitVec.xor_assoc]

theorem tree8_eq_par (b : BitVec 8) : tree8 b = par b := by
  rw [tree8, fold2_eq_par, par_fold4, par_fold8]

theorem compute8_eq_par (cfg : Cfg) (x : BitVec 8) : compute8 cfg x = par x := by
  unfold compute8
  split
  · exact leaf8_eq_par x
  · exact tree8_eq_par x

theorem compute16_eq_par (cfg : Cfg) (x : BitVec 16) : compute16 cfg x = par x := by
  unfold compute16
  split
  · rw [leaf8_eq_par, par_fold16]
  · rw [tree8_eq_par, par_fold16]

theorem compute32_eq_par (cfg : Cfg) (x : BitVec 32) : compute32 cfg x = par x := by
  unfold compute32
  split
  · rw [leaf8_eq_par, par_fold16, par_fold32]
  · rw [tree8_eq_par, par_fold16, par_fold32]

/-! ## Soundness (R72) -/

section Base

variable {w : Nat} {const : Option Bit} {onehot0 : Bool} {x : BitVec w}

theorem constSound_iff : constSound const x = true ↔ ∀ c, const = some c → par x = c := by
  cases const <;> simp [constSound]

theorem baseSound_iff : baseSound const onehot0 x = true ↔
    (∀ c, const = some c → par x = c) ∧ (onehot0 = true → popcount x ≤ 1) := by
  cases onehot0 <;> simp [baseSound, constSound_iff]

/-- The OR of the bits is their parity where at most one of them is set. -/
theorem orr_eq_par (h : popcount x ≤ 1) : orr x = par x := by
  rcases Nat.le_one_iff_eq_zero_or_eq_one.mp h with h0 | h1
  · rw [popcount_eq_zero_iff.mp h0, orr, if_pos rfl, par_zero]
  · have hx : x ≠ 0#w := fun hx => by simp [hx] at h1
    rw [orr, if_neg hx, par, h1]

theorem knownConst_eq_par (h : baseSound const onehot0 x = true) (hc : ∃ c, const = some c) :
    knownConst const = par x := by
  obtain ⟨c, rfl⟩ := hc
  exact ((baseSound_iff.mp h).1 c rfl).symm

theorem orr_eq_par_of_baseSound (h : baseSound const onehot0 x = true) (ho : onehot0 = true) :
    orr x = par x :=
  orr_eq_par ((baseSound_iff.mp h).2 ho)

end Base

variable {cfg : Cfg}

theorem sound16_iff {k : Know16} {x : BitVec 16} : sound16 cfg k x = true ↔
    baseSound k.const k.onehot0 x = true ∧ (k.fits8 = true → x.toNat ≤ 0xFF) ∧
      (select16 cfg k = .t3 → sound8 cfg k.sub (low8 x) = true) := by
  simp [sound16, imp_iff_not_or, and_assoc]

theorem sound32_iff {k : Know32} {x : BitVec 32} : sound32 cfg k x = true ↔
    baseSound k.const k.onehot0 x = true ∧ (k.fits16 = true → x.toNat ≤ 0xFFFF) ∧
      (k.low16zero = true → low16 x = 0#16) ∧
      (select32 cfg k = .t3 → sound16 cfg k.sub (low16 x) = true) ∧
      (select32 cfg k = .t4 → sound16 cfg k.sub (high16 x) = true) := by
  simp [sound32, imp_iff_not_or, and_assoc]

/-! ## The parts handed to a narrower dispatcher (R79 to R81) -/

theorem par_low8 {x : BitVec 16} (h : x.toNat ≤ 0xFF) : par (low8 x) = par x :=
  (par_of_toNat_lt (n := 8) (by decide) (by omega)).symm

theorem par_low16 {x : BitVec 32} (h : x.toNat ≤ 0xFFFF) : par (low16 x) = par x :=
  (par_of_toNat_lt (n := 16) (by decide) (by omega)).symm

theorem par_high16 {x : BitVec 32} (h : low16 x = 0#16) : par (high16 x) = par x :=
  (par_of_low_zero (n := 16) (by decide) h).symm

theorem shiftedDown16_eq_high16 (x : BitVec 32) : shiftedDown16 x = high16 x := by
  ext i hi
  simp [shiftedDown16, low16, high16]

/-! ## The dispatchers (R88) -/

theorem dispatch8_eq_par {k : Know8} {x : BitVec 8} (h : sound8 cfg k x = true) :
    dispatch8 cfg k x = par x := by
  unfold dispatch8
  split
  case h_1 hsel => exact knownConst_eq_par h (select8_t1 hsel)
  case h_2 hsel => exact orr_eq_par_of_baseSound h (select8_t2 hsel).2
  all_goals exact compute8_eq_par cfg x

theorem dispatch16_eq_par {k : Know16} {x : BitVec 16} (h : sound16 cfg k x = true) :
    dispatch16 cfg k x = par x := by
  obtain ⟨hbase, hfits, hsub⟩ := sound16_iff.mp h
  unfold dispatch16
  split
  case h_1 hsel => exact knownConst_eq_par hbase (select16_t1 hsel)
  case h_2 hsel => exact orr_eq_par_of_baseSound hbase (select16_t2 hsel).2
  case h_3 hsel =>
    obtain ⟨-, -, hfits8⟩ := select16_t3 hsel
    rw [dispatch8_eq_par (hsub hsel), par_low8 (hfits hfits8)]
  all_goals exact compute16_eq_par cfg x

theorem dispatch32_eq_par {k : Know32} {x : BitVec 32} (h : sound32 cfg k x = true) :
    dispatch32 cfg k x = par x := by
  obtain ⟨hbase, hfits, hlow, hsub3, hsub4⟩ := sound32_iff.mp h
  unfold dispatch32
  split
  case h_1 hsel => exact knownConst_eq_par hbase (select32_t1 hsel)
  case h_2 hsel => exact orr_eq_par_of_baseSound hbase (select32_t2 hsel).2
  case h_3 hsel =>
    obtain ⟨-, -, hfits16⟩ := select32_t3 hsel
    rw [dispatch16_eq_par (hsub3 hsel), par_low16 (hfits hfits16)]
  case h_4 hsel =>
    obtain ⟨-, -, -, -, hlow16zero⟩ := select32_t4 hsel
    rw [shiftedDown16_eq_high16, dispatch16_eq_par (hsub4 hsel), par_high16 (hlow hlow16zero)]
  case h_5 => exact compute32_eq_par cfg x

/-! ## The empty knowledge is sound for every operand (R72) -/

theorem sound8_empty (cfg : Cfg) (x : BitVec 8) : sound8 cfg Know8.empty x = true := rfl

theorem sound16_empty (cfg : Cfg) (x : BitVec 16) : sound16 cfg Know16.empty x = true :=
  sound16_iff.mpr ⟨rfl, nofun, fun _ => sound8_empty cfg _⟩

theorem sound32_empty (cfg : Cfg) (x : BitVec 32) : sound32 cfg Know32.empty x = true :=
  sound32_iff.mpr ⟨rfl, nofun, nofun, fun _ => sound16_empty cfg _, fun _ => sound16_empty cfg _⟩

theorem soundFor_empty (cfg : Cfg) (i : Instr) : soundFor { cfg := cfg, k := Knowledge.empty } i = true := by
  cases i with
  | parity8 x => exact sound8_empty cfg x
  | parity16 x => exact sound16_empty cfg x
  | parity32 x => exact sound32_empty cfg x

end Sys2Proof.Machine

/-! The three operations and the laws of the contract: what an admitted request is answered is the parity of
its operand, on every instance (spec/40_operations.md R58 to R64). -/

namespace Sys2Proof.Machine

variable {inst : Instance}

/-- R58, R88: where the knowledge is sound, the dispatcher of each operation returns the parity. -/
theorem dispatchFor_eq_parityOf {i : Instr} (h : soundFor inst i = true) :
    dispatchFor inst i = parityOf i := by
  cases i with
  | parity8 x => exact dispatch8_eq_par h
  | parity16 x => exact dispatch16_eq_par h
  | parity32 x => exact dispatch32_eq_par h

theorem respondTo_eq_parityOf {i : Instr} (h : soundFor inst i = true) :
    respondTo inst i = .response (parityOf i) := by
  rw [respondTo_of_sound h, dispatchFor_eq_parityOf h]

/-- Settles O25: an admitted request is answered by a dispatcher that returns `par`, and `par` is the count
modulo 2 and the XOR of the bits. -/
theorem responseIsPopcountModTwo : Obligations.ResponseIsPopcountModTwo :=
  ⟨fun _ _ _ hop hs => (portStep_of_op hop).trans (respondTo_eq_parityOf hs),
    fun _ v => ⟨par_toNat v, par_eq_one_iff, par_eq_zero_iff, par_eq_xorAll v⟩⟩

/-! ## The operations on the machine (R59 to R61) -/

theorem exec_of_sound {i : Instr} {s : State} (h : soundFor s.inst i = true) :
    exec i s = .next (s.respond (parityOf i)) :=
  exec_eq_next_iff.mpr ⟨h, by rw [dispatchFor_eq_parityOf h]⟩

/-- Settles O9: the meaning of an operation the knowledge is sound for, at 8 bits. -/
theorem parity8RespondsWithParity : Obligations.Parity8RespondsWithParity :=
  fun _ x hs => exec_of_sound (i := .parity8 x) hs

/-- Settles O10: the meaning of an operation the knowledge is sound for, at 16 bits. -/
theorem parity16RespondsWithParity : Obligations.Parity16RespondsWithParity :=
  fun _ x hs => exec_of_sound (i := .parity16 x) hs

/-- Settles O11: the meaning of an operation the knowledge is sound for, at 32 bits. -/
theorem parity32RespondsWithParity : Obligations.Parity32RespondsWithParity :=
  fun _ x hs => exec_of_sound (i := .parity32 x) hs

/-- Settles O12: an operation that completes has driven `p`, which leaves the other fields. -/
theorem operationsWriteOnlyTheResponse : Obligations.OperationsWriteOnlyTheResponse := by
  intro i s t h
  obtain ⟨-, rfl⟩ := exec_eq_next_iff.mp h
  exact ⟨respond_inst _ _, respond_wsel _ _, respond_xbus _ _, respond_requests _ _⟩

/-! ## The laws across instances (R62 to R64) -/

/-- The response to a canonical request is the parity of its operand. -/
theorem eq_parityOf_of_response {i : Instr} {e : Bit} (h : portStep inst (encodeRequest i) = .response e) :
    e = parityOf i := by
  rw [portStep_encodeRequest, respondTo_eq_response_iff] at h
  obtain ⟨hs, rfl⟩ := h
  exact dispatchFor_eq_parityOf hs

/-- Settles O26: both responses are parities, and a small value has the parity of its low part. -/
theorem crossWidthConsistency : Obligations.CrossWidthConsistency := by
  refine ⟨fun _ _ x a b hx ha hb => ?_, fun _ _ x a b hx ha hb => ?_⟩
  · calc a
      _ = par x := eq_parityOf_of_response ha
      _ = par (low8 x) := (par_low8 hx).symm
      _ = b := (eq_parityOf_of_response hb).symm
  · calc a
      _ = par x := eq_parityOf_of_response ha
      _ = par (low16 x) := (par_low16 hx).symm
      _ = b := (eq_parityOf_of_response hb).symm

/-- Settles O27: both responses are parities, and the upper half of a value whose lower half is zero has the
parity of the value. -/
theorem foldInvariance : Obligations.FoldInvariance := by
  intro _ _ x a b hx ha hb
  have hhigh : (x >>> 16).setWidth 16 = high16 x := BitVec.setWidth_ushiftRight_eq_extractLsb
  rw [hhigh] at hb
  calc a
    _ = par x := eq_parityOf_of_response ha
    _ = par (high16 x) := (par_high16 hx).symm
    _ = b := (eq_parityOf_of_response hb).symm

theorem admits_iff {r : Request} :
    admits inst r = true ↔ ∃ i, decode r.word = .op i ∧ soundFor inst i = true := by
  cases h : decode r.word <;> simp [admits, h]

/-- An admitted request is answered as any other instance that admits it answers. -/
theorem portStep_eq_of_admits {inst' : Instance} {r : Request} (h : admits inst r = true)
    (h' : admits inst' r = true) : portStep inst r = portStep inst' r := by
  obtain ⟨i, hop, hs⟩ := admits_iff.mp h
  obtain ⟨i', hop', hs'⟩ := admits_iff.mp h'
  obtain rfl : i = i' := Decoded.op.inj (hop.symm.trans hop')
  rw [portStep_of_op hop, portStep_of_op hop, respondTo_eq_parityOf hs, respondTo_eq_parityOf hs']

/-- An instance that knows nothing admits every request that some instance admits. -/
theorem admits_empty {r : Request} (cfg : Cfg) (h : admits inst r = true) :
    admits { cfg := cfg, k := Knowledge.empty } r = true := by
  obtain ⟨i, hop, -⟩ := admits_iff.mp h
  exact admits_iff.mpr ⟨i, hop, soundFor_empty cfg i⟩

/-- Settles O28: admission fixes the response, and an instance that knows nothing admits the request too. -/
theorem configurationChangesNoResponse : Obligations.ConfigurationChangesNoResponse :=
  ⟨fun _ _ _ => portStep_eq_of_admits, fun _ cfg _ h => portStep_eq_of_admits h (admits_empty cfg h)⟩

end Sys2Proof.Machine

/-! The dispatcher tier by tier: when each tier is selected and what it returns, the clauses of soundness, the
refusal of unsound knowledge and the shape of a trace (spec/41_dispatcher.md R72 to R91). -/

namespace Sys2Proof.Machine

/-- Settles O36: R88 at each of the three widths. -/
theorem dispatchersAreCorrect : Obligations.DispatchersAreCorrect :=
  fun _ => ⟨fun _ _ => dispatch8_eq_par, fun _ _ => dispatch16_eq_par, fun _ _ => dispatch32_eq_par⟩

/-- Settles O13: both steps and the meaning refuse what the knowledge is not sound for. -/
theorem unsoundKnowledgeIsRefused : Obligations.UnsoundKnowledgeIsRefused := by
  intro s r i hop hs
  refine ⟨(portStep_of_op hop).trans (respondTo_of_unsound hs), ?_, exec_eq_refused_iff.mpr ⟨hs, rfl⟩⟩
  rintro rfl
  exact step_eq_refused_iff.mpr (.inr ⟨i, hop, hs, rfl⟩)

/-- Settles O35: the base clauses at each width, and the clauses of the narrower widths joined to them. -/
theorem soundnessClauses : Obligations.SoundnessClauses := by
  refine fun cfg => ⟨fun k x => baseSound_iff, fun k x => ?_, fun k x => ?_,
    sound8_empty cfg, sound16_empty cfg, sound32_empty cfg⟩
  · rw [sound16_iff, baseSound_iff, and_assoc]
    rfl
  · rw [sound32_iff, baseSound_iff, and_assoc]
    rfl

/-! ## When each tier is selected (R75) -/

section Select

variable (cfg : Cfg)

/-- The tests of R75 at 8 bits in their order, with the tier each outcome selects. -/
theorem select8_cases (k : Know8) :
    (cfg.foldEnable = false ∧ select8 cfg k = .t5) ∨
    (cfg.foldEnable = true ∧ (∃ c, k.const = some c) ∧ select8 cfg k = .t1) ∨
    (cfg.foldEnable = true ∧ k.const = none ∧ k.onehot0 = true ∧ select8 cfg k = .t2) ∨
    (cfg.foldEnable = true ∧ k.const = none ∧ k.onehot0 = false ∧ select8 cfg k = .t5) := by
  unfold select8
  cases cfg.foldEnable
  case false => simp
  cases k.const
  case some c => simp
  cases k.onehot0 <;> simp

/-- The tests of R75 at 16 bits in their order, with the tier each outcome selects. -/
theorem select16_cases (k : Know16) :
    (cfg.foldEnable = false ∧ select16 cfg k = .t5) ∨
    (cfg.foldEnable = true ∧ (∃ c, k.const = some c) ∧ select16 cfg k = .t1) ∨
    (cfg.foldEnable = true ∧ k.const = none ∧ k.onehot0 = true ∧ select16 cfg k = .t2) ∨
    (cfg.foldEnable = true ∧ k.const = none ∧ k.onehot0 = false ∧ k.fits8 = true ∧ select16 cfg k = .t3) ∨
    (cfg.foldEnable = true ∧ k.const = none ∧ k.onehot0 = false ∧ k.fits8 = false ∧
      select16 cfg k = .t5) := by
  unfold select16
  cases cfg.foldEnable
  case false => simp
  cases k.const
  case some c => simp
  cases k.onehot0
  case true => simp
  cases k.fits8 <;> simp

/-- The tests of R75 at 32 bits in their order, with the tier each outcome selects. -/
theorem select32_cases (k : Know32) :
    (cfg.foldEnable = false ∧ select32 cfg k = .t5) ∨
    (cfg.foldEnable = true ∧ (∃ c, k.const = some c) ∧ select32 cfg k = .t1) ∨
    (cfg.foldEnable = true ∧ k.const = none ∧ k.onehot0 = true ∧ select32 cfg k = .t2) ∨
    (cfg.foldEnable = true ∧ k.const = none ∧ k.onehot0 = false ∧ k.fits16 = true ∧
      select32 cfg k = .t3) ∨
    (cfg.foldEnable = true ∧ k.const = none ∧ k.onehot0 = false ∧ k.fits16 = false ∧
      cfg.shiftTier = true ∧ k.low16zero = true ∧ select32 cfg k = .t4) ∨
    (cfg.foldEnable = true ∧ k.const = none ∧ k.onehot0 = false ∧ k.fits16 = false ∧
      (cfg.shiftTier = false ∨ k.low16zero = false) ∧ select32 cfg k = .t5) := by
  unfold select32
  cases cfg.foldEnable
  case false => simp
  cases k.const
  case some c => simp
  cases k.onehot0
  case true => simp
  cases k.fits16
  case true => simp
  cases cfg.shiftTier <;> cases k.low16zero <;> simp

/-- When each tier of the 8-bit dispatcher is selected. -/
theorem select8_iff (k : Know8) :
    (select8 cfg k = .t1 ↔ cfg.foldEnable = true ∧ ∃ c, k.const = some c) ∧
    (select8 cfg k = .t2 ↔ cfg.foldEnable = true ∧ k.const = none ∧ k.onehot0 = true) ∧
    (select8 cfg k = .t5 ↔ cfg.foldEnable = false ∨ (k.const = none ∧ k.onehot0 = false)) := by
  rcases select8_cases cfg k with ⟨hf, h⟩ | ⟨hf, ⟨c, hc⟩, h⟩ | ⟨hf, hc, ho, h⟩ | ⟨hf, hc, ho, h⟩ <;> simp [*]

/-- When each tier of the 16-bit dispatcher is selected. -/
theorem select16_iff (k : Know16) :
    (select16 cfg k = .t1 ↔ cfg.foldEnable = true ∧ ∃ c, k.const = some c) ∧
    (select16 cfg k = .t2 ↔ cfg.foldEnable = true ∧ k.const = none ∧ k.onehot0 = true) ∧
    (select16 cfg k = .t3 ↔
      cfg.foldEnable = true ∧ k.const = none ∧ k.onehot0 = false ∧ k.fits8 = true) ∧
    (select16 cfg k = .t5 ↔
      cfg.foldEnable = false ∨ (k.const = none ∧ k.onehot0 = false ∧ k.fits8 = false)) := by
  rcases select16_cases cfg k with ⟨hf, h⟩ | ⟨hf, ⟨c, hc⟩, h⟩ | ⟨hf, hc, ho, h⟩ | ⟨hf, hc, ho, hfit, h⟩ |
    ⟨hf, hc, ho, hfit, h⟩ <;> simp [*]

/-- When each tier of the 32-bit dispatcher is selected. -/
theorem select32_iff (k : Know32) :
    (select32 cfg k = .t1 ↔ cfg.foldEnable = true ∧ ∃ c, k.const = some c) ∧
    (select32 cfg k = .t2 ↔ cfg.foldEnable = true ∧ k.const = none ∧ k.onehot0 = true) ∧
    (select32 cfg k = .t3 ↔
      cfg.foldEnable = true ∧ k.const = none ∧ k.onehot0 = false ∧ k.fits16 = true) ∧
    (select32 cfg k = .t4 ↔
      cfg.foldEnable = true ∧ k.const = none ∧ k.onehot0 = false ∧ k.fits16 = false ∧
        cfg.shiftTier = true ∧ k.low16zero = true) ∧
    (select32 cfg k = .t5 ↔
      cfg.foldEnable = false ∨
        (k.const = none ∧ k.onehot0 = false ∧ k.fits16 = false ∧
          (cfg.shiftTier = false ∨ k.low16zero = false))) := by
  rcases select32_cases cfg k with ⟨hf, h⟩ | ⟨hf, ⟨c, hc⟩, h⟩ | ⟨hf, hc, ho, h⟩ | ⟨hf, hc, ho, hfit, h⟩ |
    ⟨hf, hc, ho, hfit, hs, hz, h⟩ | ⟨hf, hc, ho, hfit, hsz, h⟩
  case inr.inr.inr.inr.inr => rcases hsz with hs | hz <;> simp [*]
  all_goals simp [*]

end Select

theorem exists_select8_eq_iff (t : Tier) : (∃ cfg k, select8 cfg k = t) ↔ t = .t1 ∨ t = .t2 ∨ t = .t5 := by
  constructor
  · rintro ⟨cfg, k, rfl⟩
    rcases select8_cases cfg k with h | h | h | h <;> simp [h]
  · rintro (rfl | rfl | rfl)
    · exact ⟨Instance.default.cfg, { Know8.empty with const := some 0#1 }, rfl⟩
    · exact ⟨Instance.default.cfg, { Know8.empty with onehot0 := true }, rfl⟩
    · exact ⟨Instance.default.cfg, Know8.empty, rfl⟩

theorem exists_select16_eq_iff (t : Tier) :
    (∃ cfg k, select16 cfg k = t) ↔ t = .t1 ∨ t = .t2 ∨ t = .t3 ∨ t = .t5 := by
  constructor
  · rintro ⟨cfg, k, rfl⟩
    rcases select16_cases cfg k with h | h | h | h | h <;> simp [h]
  · rintro (rfl | rfl | rfl | rfl)
    · exact ⟨Instance.default.cfg, { Know16.empty with const := some 0#1 }, rfl⟩
    · exact ⟨Instance.default.cfg, { Know16.empty with onehot0 := true }, rfl⟩
    · exact ⟨Instance.default.cfg, { Know16.empty with fits8 := true }, rfl⟩
    · exact ⟨Instance.default.cfg, Know16.empty, rfl⟩

theorem exists_select32_eq : ∀ t : Tier, ∃ cfg k, select32 cfg k = t
  | .t1 => ⟨Instance.default.cfg, { Know32.empty with const := some 0#1 }, rfl⟩
  | .t2 => ⟨Instance.default.cfg, { Know32.empty with onehot0 := true }, rfl⟩
  | .t3 => ⟨Instance.default.cfg, { Know32.empty with fits16 := true }, rfl⟩
  | .t4 => ⟨Instance.default.cfg, { Know32.empty with low16zero := true }, rfl⟩
  | .t5 => ⟨Instance.default.cfg, Know32.empty, rfl⟩

/-- Settles O38: the conditions are the outcomes of R75's tests, and the default configuration has each tier
of a dispatcher under some knowledge. -/
theorem tiersOfEachWidth : Obligations.TiersOfEachWidth :=
  ⟨select8_iff, select16_iff, select32_iff, exists_select8_eq_iff, exists_select16_eq_iff,
    exists_select32_eq⟩

/-! ## What a dispatcher returns under each tier (R83 to R85) -/

section Dispatch

variable {cfg : Cfg}

theorem dispatch8_of_select {k : Know8} (x : BitVec 8) :
    (select8 cfg k = .t1 → dispatch8 cfg k x = knownConst k.const) ∧
    (select8 cfg k = .t2 → dispatch8 cfg k x = orr x) ∧
    (select8 cfg k = .t5 → dispatch8 cfg k x = compute8 cfg x) := by
  refine ⟨fun h => ?_, fun h => ?_, fun h => ?_⟩ <;> rw [dispatch8, h]

theorem dispatch16_of_select {k : Know16} (x : BitVec 16) :
    (select16 cfg k = .t1 → dispatch16 cfg k x = knownConst k.const) ∧
    (select16 cfg k = .t2 → dispatch16 cfg k x = orr x) ∧
    (select16 cfg k = .t3 → dispatch16 cfg k x = dispatch8 cfg k.sub (low8 x)) ∧
    (select16 cfg k = .t5 → dispatch16 cfg k x = compute16 cfg x) := by
  refine ⟨fun h => ?_, fun h => ?_, fun h => ?_, fun h => ?_⟩ <;> rw [dispatch16, h]

theorem dispatch32_of_select {k : Know32} (x : BitVec 32) :
    (select32 cfg k = .t1 → dispatch32 cfg k x = knownConst k.const) ∧
    (select32 cfg k = .t2 → dispatch32 cfg k x = orr x) ∧
    (select32 cfg k = .t3 → dispatch32 cfg k x = dispatch16 cfg k.sub (low16 x)) ∧
    (select32 cfg k = .t4 → dispatch32 cfg k x = dispatch16 cfg k.sub (high16 x)) ∧
    (select32 cfg k = .t5 → dispatch32 cfg k x = compute32 cfg x) := by
  refine ⟨fun h => ?_, fun h => ?_, fun h => ?_, fun h => ?_, fun h => ?_⟩ <;> rw [dispatch32, h]
  rw [shiftedDown16_eq_high16]

/-- Settles O37: with folding disabled tier 5 is selected at each width, and its trace goes no further. -/
theorem foldingDisabledOnlyComputes : Obligations.FoldingDisabledOnlyComputes := by
  refine fun cfg hf => ⟨fun k x => ?_, fun k x => ?_, fun k x => ?_⟩
  · have h : select8 cfg k = .t5 := by simp [select8, hf]
    exact ⟨by rw [dispatch8, h], by rw [trace8, h]⟩
  · have h : select16 cfg k = .t5 := by simp [select16, hf]
    exact ⟨by rw [dispatch16, h], by simp [trace16, h]⟩
  · have h : select32 cfg k = .t5 := by simp [select32, hf]
    exact ⟨by rw [dispatch32, h], by simp [trace32, h]⟩

/-- Settles O46: each condition selects its tier, and the tier's result is the dispatcher's. -/
theorem tierConditionsAndResults : Obligations.TierConditionsAndResults := by
  refine fun cfg hf => ⟨fun k x => ?_, fun k x => ?_, fun k x => ?_⟩
  · obtain ⟨sel1, sel2, sel5⟩ := select8_iff cfg k
    obtain ⟨res1, res2, res5⟩ := dispatch8_of_select (cfg := cfg) (k := k) x
    refine ⟨fun c hc => ?_, fun hc ho => res2 (sel2.mpr ⟨hf, hc, ho⟩),
      fun hc ho => res5 (sel5.mpr (.inr ⟨hc, ho⟩))⟩
    rw [res1 (sel1.mpr ⟨hf, c, hc⟩), hc, knownConst]
  · obtain ⟨sel1, sel2, sel3, sel5⟩ := select16_iff cfg k
    obtain ⟨res1, res2, res3, res5⟩ := dispatch16_of_select (cfg := cfg) (k := k) x
    refine ⟨fun c hc => ?_, fun hc ho => res2 (sel2.mpr ⟨hf, hc, ho⟩),
      fun hc ho hfit => res3 (sel3.mpr ⟨hf, hc, ho, hfit⟩),
      fun hc ho hfit => res5 (sel5.mpr (.inr ⟨hc, ho, hfit⟩))⟩
    rw [res1 (sel1.mpr ⟨hf, c, hc⟩), hc, knownConst]
  · obtain ⟨sel1, sel2, sel3, sel4, sel5⟩ := select32_iff cfg k
    obtain ⟨res1, res2, res3, res4, res5⟩ := dispatch32_of_select (cfg := cfg) (k := k) x
    refine ⟨fun c hc => ?_, fun hc ho => res2 (sel2.mpr ⟨hf, hc, ho⟩),
      fun hc ho hfit => res3 (sel3.mpr ⟨hf, hc, ho, hfit⟩),
      fun hc ho hfit hs hz => res4 (sel4.mpr ⟨hf, hc, ho, hfit, hs, hz⟩),
      fun hc ho hfit hsz => res5 (sel5.mpr (.inr ⟨hc, ho, hfit, hsz⟩))⟩
    rw [res1 (sel1.mpr ⟨hf, c, hc⟩), hc, knownConst]

end Dispatch

/-! ## Traces (R89) -/

/-- Tiers 3 and 4 hand the operand to a narrower dispatcher; tiers 1, 2 and 5 end a trace. -/
theorem tier_ends_or_delegates (t : Tier) : (t = .t1 ∨ t = .t2 ∨ t = .t5) ∨ (t = .t3 ∨ t = .t4) := by
  cases t <;> decide

/-- A trace of at most `n` entries that begins at width `w`, narrows strictly, delegates at every entry but
the last and ends at the last. -/
structure TraceFrom (w : Width) (n : Nat) (tr : List (Width × Tier)) : Prop where
  length_pos : 1 ≤ tr.length
  length_le : tr.length ≤ n
  bits_le : ∀ e ∈ tr, e.1.bits ≤ w.bits
  narrows : tr.Pairwise fun a b => b.1.bits < a.1.bits
  delegates : ∀ e ∈ tr.dropLast, e.2 = .t3 ∨ e.2 = .t4
  ends : ∀ e, tr.getLast? = some e → e.2 = .t1 ∨ e.2 = .t2 ∨ e.2 = .t5

variable {w v : Width} {n : Nat} {t : Tier} {tr : List (Width × Tier)}

theorem TraceFrom.of_ends (ht : t = .t1 ∨ t = .t2 ∨ t = .t5) : TraceFrom w (n + 1) [(w, t)] where
  length_pos := by simp
  length_le := by simp
  bits_le := by simp
  narrows := by simp
  delegates := by simp
  ends := by simpa using ht

theorem TraceFrom.of_delegates (h : TraceFrom v n tr) (hw : v.bits < w.bits) (ht : t = .t3 ∨ t = .t4) :
    TraceFrom w (n + 1) ((w, t) :: tr) := by
  have hne : tr ≠ [] := List.length_pos_iff.mp h.length_pos
  have hlt : ∀ e ∈ tr, e.1.bits < w.bits := fun e he => (h.bits_le e he).trans_lt hw
  refine ⟨by simp, by simpa using h.length_le, ?_, List.pairwise_cons.mpr ⟨hlt, h.narrows⟩, ?_, ?_⟩
  · exact List.forall_mem_cons.mpr ⟨le_rfl, fun e he => (hlt e he).le⟩
  · rw [List.dropLast_cons_of_ne_nil hne]
    exact List.forall_mem_cons.mpr ⟨ht, h.delegates⟩
  · rw [List.getLast?_cons_of_ne_nil hne]
    exact h.ends

theorem traceFrom_trace8 (cfg : Cfg) (k : Know8) : TraceFrom .w8 1 (trace8 cfg k) := by
  refine .of_ends ?_
  rcases select8_cases cfg k with h | h | h | h <;> simp [h]

theorem traceFrom_trace16 (cfg : Cfg) (k : Know16) : TraceFrom .w16 2 (trace16 cfg k) := by
  unfold trace16
  split
  case isTrue h => exact (traceFrom_trace8 cfg k.sub).of_delegates (by decide) (.inl h)
  case isFalse hne =>
    refine .of_ends ?_
    rcases select16_cases cfg k with h | h | h | h | h <;> simp_all

theorem traceFrom_trace32 (cfg : Cfg) (k : Know32) : TraceFrom .w32 3 (trace32 cfg k) := by
  unfold trace32
  split
  case isTrue h => exact (traceFrom_trace16 cfg k.sub).of_delegates (by decide) h
  case isFalse h => exact .of_ends ((tier_ends_or_delegates _).resolve_right h)

theorem TraceFrom.mono {m : Nat} (h : TraceFrom w n tr) (hnm : n ≤ m) : TraceFrom w m tr :=
  { h with length_le := h.length_le.trans hnm }

/-- Settles O39: the trace of each width has the shape, and none is longer than that of 32 bits. -/
theorem tracesNarrowAndEnd : Obligations.TracesNarrowAndEnd := by
  intro inst tr htr
  obtain ⟨w, h⟩ : ∃ w, TraceFrom w 3 tr := by
    rcases htr with rfl | rfl | rfl
    · exact ⟨.w8, (traceFrom_trace8 _ _).mono (by decide)⟩
    · exact ⟨.w16, (traceFrom_trace16 _ _).mono (by decide)⟩
    · exact ⟨.w32, traceFrom_trace32 _ _⟩
  exact ⟨h.length_pos, h.length_le, h.narrows, h.delegates, h.ends⟩

end Sys2Proof.Machine

/-! The structure of an instance: what its gates compute and which bus lines they connect
(spec/41_dispatcher.md R77 to R86; spec/42_parity_tree.md R104). -/

namespace Sys2Proof.Machine

variable {w : Nat} {xbus : Bus} {l : List Net}

/-! ## The bits of a value and a bundle that carries them -/

/-- The bits of a value, bit 0 first. -/
def wires (v : BitVec w) : List Bit := (List.range w).map (bitAt v)

@[simp] theorem length_wires (v : BitVec w) : (wires v).length = w := by simp [wires]

@[simp] theorem getElem_wires (v : BitVec w) (i : Nat) (hi : i < (wires v).length) :
    (wires v)[i] = bitAt v i := by simp [wires]

theorem take_wires {n : Nat} (hn : n ≤ w) (v : BitVec w) : (wires v).take n = wires (v.extractLsb' 0 n) := by
  refine List.ext_getElem (by simpa) fun i hi _ => ?_
  have hin : i < n := by simp at hi; omega
  simp [bitAt, hin]

theorem drop_wires {n : Nat} (v : BitVec w) : (wires v).drop n = wires (v.extractLsb' n (w - n)) := by
  refine List.ext_getElem (by simp) fun i hi _ => ?_
  have hin : i < w - n := by simpa using hi
  simp [bitAt, hin]

theorem zipWith_xor_wires (a b : BitVec w) : List.zipWith (· ^^^ ·) (wires a) (wires b) = wires (a ^^^ b) := by
  refine List.ext_getElem (by simp) fun i _ _ => ?_
  simp

/-- While `xbus` is held, the wires of the bundle carry the bits of `v`. -/
def Carries (xbus : Bus) (l : List Net) (v : BitVec w) : Prop := l.map (Net.eval xbus) = wires v

theorem carries_busLines (xbus : Bus) (lo n : Nat) : Carries xbus (busLines lo n) (xbus.extractLsb' lo n) := by
  refine List.ext_getElem (by simp) fun i hi _ => ?_
  have hin : i < n := by simpa using hi
  simp [busLines, bitAt, hin]

theorem Carries.take {v : BitVec w} (h : Carries xbus l v) {n : Nat} (hn : n ≤ w) :
    Carries xbus (l.take n) (v.extractLsb' 0 n) := by
  rw [Carries, List.map_take, h, take_wires hn]

theorem Carries.drop {v : BitVec w} (h : Carries xbus l v) (n : Nat) :
    Carries xbus (l.drop n) (v.extractLsb' n (w - n)) := by
  rw [Carries, List.map_drop, h, drop_wires]

theorem Carries.length_eq {v : BitVec w} (h : Carries xbus l v) : l.length = w := by
  simpa using congrArg List.length h

/-- A fold of a bundle carries the XOR of the two halves of the value (R95, R96, R104). -/
theorem Carries.fold {n : Nat} {v : BitVec (2 * n)} (h : Carries xbus l v) :
    Carries xbus (foldNets l) (v.extractLsb' n n ^^^ v.extractLsb' 0 n) := by
  have hhalf : l.length / 2 = n := by rw [h.length_eq]; omega
  have hsub : 2 * n - n = n := by omega
  have hhigh := h.drop n
  rw [hsub] at hhigh
  have hlow := h.take (n := n) (by omega)
  rw [Carries] at hhigh hlow ⊢
  rw [← zipWith_xor_wires, ← hhigh, ← hlow, foldNets, hhalf, List.zipWith_map, List.map_zipWith]
  rfl

/-! ## The stages -/

theorem eval_foldl_xor (n : Net) (l : List Net) :
    (l.foldl .xor n).eval xbus = (l.map (Net.eval xbus)).foldl (· ^^^ ·) (n.eval xbus) := by
  induction l generalizing n with
  | nil => rfl
  | cons a l ih => exact ih (n.xor a)

theorem eval_foldl_or (n : Net) (l : List Net) :
    (l.foldl .or n).eval xbus = (l.map (Net.eval xbus)).foldl (· ||| ·) (n.eval xbus) := by
  induction l generalizing n with
  | nil => rfl
  | cons a l ih => exact ih (n.or a)

theorem leafNet_eval_eq_foldl (l : List Net) :
    (leafNet l).eval xbus = (l.map (Net.eval xbus)).reverse.foldl (· ^^^ ·) 0#1 := by
  rw [leafNet, ← List.map_reverse]
  cases l.reverse with
  | nil => rfl
  | cons n rest => simp [eval_foldl_xor]

theorem orNet_eval_eq_foldl (l : List Net) :
    (orNet l).eval xbus = (l.map (Net.eval xbus)).foldl (· ||| ·) 0#1 := by
  cases l with
  | nil => rfl
  | cons n rest => simp [orNet, eval_foldl_or]

theorem firstNet_eval_eq_headD (l : List Net) : (firstNet l).eval xbus = (l.map (Net.eval xbus)).headD 0#1 := by
  cases l <;> rfl

theorem Carries.eval_leafNet {b : BitVec 8} (h : Carries xbus l b) : (leafNet l).eval xbus = leaf8 b := by
  rw [leafNet_eval_eq_foldl, h]
  simp [wires, leaf8, List.range_succ]

theorem Carries.eval_firstNet {b : Bit} (h : Carries xbus l b) : (firstNet l).eval xbus = b := by
  rw [firstNet_eval_eq_headD, h]
  have hbit : ∀ b : Bit, (wires b).headD 0#1 = b := by decide
  exact hbit b

theorem Carries.eval_treeNet {b : BitVec 8} (h : Carries xbus l b) : (treeNet l).eval xbus = tree8 b := by
  have h4 : Carries xbus (foldNets l) (fold8 b) := h.fold (n := 4)
  have h2 : Carries xbus (foldNets (foldNets l)) (fold4 (fold8 b)) := h4.fold (n := 2)
  have hbits : ∀ m : BitVec 2, m.extractLsb' 1 1 ^^^ m.extractLsb' 0 1 = fold2 m := by decide
  rw [treeNet, (h2.fold (n := 1)).eval_firstNet, hbits, tree8]

/-- The 8-bit stage of either variant computes what the computation strategy does on a byte. -/
theorem Carries.eval_stageNet (cfg : Cfg) {b : BitVec 8} (h : Carries xbus l b) :
    (stageNet cfg l).eval xbus = compute8 cfg b := by
  unfold stageNet compute8
  cases cfg.strategy with
  | fast => exact h.eval_leafNet
  | portable => exact h.eval_treeNet

/-- A chain of ORs is 0 exactly where every bit is. -/
theorem foldl_or_eq_zero_iff (bs : List Bit) (acc : Bit) :
    bs.foldl (· ||| ·) acc = 0#1 ↔ acc = 0#1 ∧ ∀ b ∈ bs, b = 0#1 := by
  induction bs generalizing acc with
  | nil => simp
  | cons b bs ih => simp [ih, and_assoc]

theorem bitAt_eq_zero_iff {v : BitVec w} {i : Nat} : bitAt v i = 0#1 ↔ v.getLsbD i = false :=
  BitVec.ofBool_eq_iff_eq (b' := false)

theorem forall_wires_eq_zero_iff {v : BitVec w} : (∀ b ∈ wires v, b = 0#1) ↔ v = 0#w := by
  refine ⟨fun h => BitVec.eq_of_getLsbD_eq fun i hi => ?_, ?_⟩
  · rw [BitVec.getLsbD_zero]
    exact bitAt_eq_zero_iff.mp (h _ (List.mem_map_of_mem (List.mem_range.mpr hi)))
  · rintro rfl
    simp [wires, bitAt]

theorem Carries.eval_orNet {v : BitVec w} (h : Carries xbus l v) : (orNet l).eval xbus = orr v := by
  have hzero : (orNet l).eval xbus = 0#1 ↔ v = 0#w := by
    rw [orNet_eval_eq_foldl, h, foldl_or_eq_zero_iff, forall_wires_eq_zero_iff, and_iff_right rfl]
  have hone : ∀ b : Bit, b ≠ 0#1 → b = 1#1 := by decide
  unfold orr
  split
  case isTrue hv => exact hzero.mpr hv
  case isFalse hv => exact hone _ (hzero.not.mpr hv)

/-! ## The dispatchers -/

theorem compute16_eq_compute8_fold16 (cfg : Cfg) (x : BitVec 16) :
    compute16 cfg x = compute8 cfg (fold16 x) := rfl

theorem compute32_eq_compute8_fold16 (cfg : Cfg) (x : BitVec 32) :
    compute32 cfg x = compute8 cfg (fold16 (fold32 x)) := rfl

theorem Carries.eval_dispatchNet8 (cfg : Cfg) (k : Know8) {x : BitVec 8} (h : Carries xbus l x) :
    (dispatchNet8 cfg k l).eval xbus = dispatch8 cfg k x := by
  unfold dispatchNet8 dispatch8
  cases select8 cfg k with
  | t1 => rfl
  | t2 => exact h.eval_orNet
  | t3 | t4 | t5 => exact h.eval_stageNet cfg

theorem Carries.eval_dispatchNet16 (cfg : Cfg) (k : Know16) {x : BitVec 16} (h : Carries xbus l x) :
    (dispatchNet16 cfg k l).eval xbus = dispatch16 cfg k x := by
  have hfold : Carries xbus (foldNets l) (fold16 x) := h.fold (n := 8)
  unfold dispatchNet16 dispatch16
  cases select16 cfg k with
  | t1 => rfl
  | t2 => exact h.eval_orNet
  | t3 => exact (h.take (by decide)).eval_dispatchNet8 cfg k.sub
  | t4 | t5 => exact (hfold.eval_stageNet cfg).trans (compute16_eq_compute8_fold16 cfg x).symm

theorem Carries.eval_dispatchNet32 (cfg : Cfg) (k : Know32) {x : BitVec 32} (h : Carries xbus l x) :
    (dispatchNet32 cfg k l).eval xbus = dispatch32 cfg k x := by
  have hfold32 : Carries xbus (foldNets l) (fold32 x) := h.fold (n := 16)
  have hfold : Carries xbus (foldNets (foldNets l)) (fold16 (fold32 x)) :=
    hfold32.fold (n := 8)
  unfold dispatchNet32 dispatch32
  cases select32 cfg k with
  | t1 => rfl
  | t2 => exact h.eval_orNet
  | t3 => exact (h.take (by decide)).eval_dispatchNet16 cfg k.sub
  | t4 =>
    rw [shiftedDown16_eq_high16]
    exact (h.drop 16).eval_dispatchNet16 cfg k.sub
  | t5 => exact (hfold.eval_stageNet cfg).trans (compute32_eq_compute8_fold16 cfg x).symm

/-- Settles O40: the bus lines carry the operand, and every stage carries on what its function computes. -/
theorem structureComputesTheDispatcher : Obligations.StructureComputesTheDispatcher := by
  refine fun inst xbus => ⟨(carries_busLines xbus 0 8).eval_dispatchNet8 _ _,
    (carries_busLines xbus 0 16).eval_dispatchNet16 _ _, ?_⟩
  have hbus := carries_busLines xbus 0 32
  rw [BitVec.extractLsb'_eq_self] at hbus
  exact hbus.eval_dispatchNet32 _ _

/-! ## The lines a structure connects -/

/-- Every line the network connects is one that `P` allows. -/
def Net.ReadsOnly (P : Nat → Prop) (n : Net) : Prop := ∀ i ∈ n.reads, P i

variable {P : Nat → Prop}

theorem readsOnly_tie (b : Bit) : (Net.tie b).ReadsOnly P := by simp [Net.ReadsOnly, Net.reads]

theorem readsOnly_xor {a b : Net} (ha : a.ReadsOnly P) (hb : b.ReadsOnly P) : (a.xor b).ReadsOnly P :=
  List.forall_mem_append.mpr ⟨ha, hb⟩

theorem readsOnly_or {a b : Net} (ha : a.ReadsOnly P) (hb : b.ReadsOnly P) : (a.or b).ReadsOnly P :=
  List.forall_mem_append.mpr ⟨ha, hb⟩

theorem readsOnly_foldl {f : Net → Net → Net}
    (hf : ∀ a b : Net, a.ReadsOnly P → b.ReadsOnly P → (f a b).ReadsOnly P) {n : Net} (hn : n.ReadsOnly P)
    (h : ∀ m ∈ l, m.ReadsOnly P) : (l.foldl f n).ReadsOnly P := by
  induction l generalizing n with
  | nil => exact hn
  | cons a l ih =>
    obtain ⟨ha, hl⟩ := List.forall_mem_cons.mp h
    exact ih (hf n a hn ha) hl

theorem readsOnly_leafNet (h : ∀ m ∈ l, m.ReadsOnly P) : (leafNet l).ReadsOnly P := by
  have hrev : ∀ m ∈ l.reverse, m.ReadsOnly P := fun m hm => h m (List.mem_reverse.mp hm)
  unfold leafNet
  cases hl : l.reverse with
  | nil => exact readsOnly_tie _
  | cons n rest =>
    obtain ⟨hn, hrest⟩ := List.forall_mem_cons.mp (hl ▸ hrev)
    exact readsOnly_foldl (fun _ _ => readsOnly_xor) hn hrest

theorem readsOnly_orNet (h : ∀ m ∈ l, m.ReadsOnly P) : (orNet l).ReadsOnly P := by
  cases l with
  | nil => exact readsOnly_tie _
  | cons n rest =>
    obtain ⟨hn, hrest⟩ := List.forall_mem_cons.mp h
    exact readsOnly_foldl (fun _ _ => readsOnly_or) hn hrest

theorem readsOnly_foldNets (h : ∀ m ∈ l, m.ReadsOnly P) : ∀ m ∈ foldNets l, m.ReadsOnly P := by
  intro m hm
  rw [foldNets, ← List.map_uncurry_zip_eq_zipWith] at hm
  obtain ⟨⟨a, b⟩, hab, rfl⟩ := List.mem_map.mp hm
  obtain ⟨ha, hb⟩ := List.of_mem_zip hab
  exact readsOnly_xor (h a (List.mem_of_mem_drop ha)) (h b (List.mem_of_mem_take hb))

theorem readsOnly_firstNet (h : ∀ m ∈ l, m.ReadsOnly P) : (firstNet l).ReadsOnly P := by
  cases l with
  | nil => exact readsOnly_tie _
  | cons n rest => exact h n List.mem_cons_self

theorem readsOnly_stageNet (cfg : Cfg) (h : ∀ m ∈ l, m.ReadsOnly P) : (stageNet cfg l).ReadsOnly P := by
  unfold stageNet
  cases cfg.strategy with
  | fast => exact readsOnly_leafNet h
  | portable => exact readsOnly_firstNet (readsOnly_foldNets (readsOnly_foldNets (readsOnly_foldNets h)))

theorem readsOnly_dispatchNet8 (cfg : Cfg) (k : Know8) (h : ∀ m ∈ l, m.ReadsOnly P) :
    (dispatchNet8 cfg k l).ReadsOnly P := by
  unfold dispatchNet8
  cases select8 cfg k with
  | t1 => exact readsOnly_tie _
  | t2 => exact readsOnly_orNet h
  | t3 | t4 | t5 => exact readsOnly_stageNet cfg h

theorem readsOnly_dispatchNet16 (cfg : Cfg) (k : Know16) (h : ∀ m ∈ l, m.ReadsOnly P) :
    (dispatchNet16 cfg k l).ReadsOnly P := by
  unfold dispatchNet16
  cases select16 cfg k with
  | t1 => exact readsOnly_tie _
  | t2 => exact readsOnly_orNet h
  | t3 => exact readsOnly_dispatchNet8 cfg k.sub fun m hm => h m (List.mem_of_mem_take hm)
  | t4 | t5 => exact readsOnly_stageNet cfg (readsOnly_foldNets h)

theorem readsOnly_dispatchNet32 (cfg : Cfg) (k : Know32) (h : ∀ m ∈ l, m.ReadsOnly P) :
    (dispatchNet32 cfg k l).ReadsOnly P := by
  unfold dispatchNet32
  cases select32 cfg k with
  | t1 => exact readsOnly_tie _
  | t2 => exact readsOnly_orNet h
  | t3 => exact readsOnly_dispatchNet16 cfg k.sub fun m hm => h m (List.mem_of_mem_take hm)
  | t4 => exact readsOnly_dispatchNet16 cfg k.sub fun m hm => h m (List.mem_of_mem_drop hm)
  | t5 => exact readsOnly_stageNet cfg (readsOnly_foldNets (readsOnly_foldNets h))

theorem readsOnly_busLines {lo n : Nat} (h : ∀ i < n, P (lo + i)) : ∀ m ∈ busLines lo n, m.ReadsOnly P := by
  simpa [busLines, Net.ReadsOnly, Net.reads] using h

theorem readsOnly_structureFor (inst : Instance) (w : Width) :
    (structureFor inst w).ReadsOnly (· < w.bits) := by
  have hbus : ∀ m ∈ busLines 0 w.bits, m.ReadsOnly (· < w.bits) :=
    readsOnly_busLines fun i hi => by omega
  cases w with
  | w8 => exact readsOnly_dispatchNet8 _ _ hbus
  | w16 => exact readsOnly_dispatchNet16 _ _ hbus
  | w32 => exact readsOnly_dispatchNet32 _ _ hbus

theorem reads_tie (b : Bit) : (Net.tie b).reads = [] := rfl

/-- Settles O41: a network connects only lines of the bundle it is built over, and a delegating tier builds
over one half of the bus lines. -/
theorem unconnectedLines : Obligations.UnconnectedLines := by
  refine fun inst => ⟨readsOnly_structureFor inst, fun h => ?_, fun h => ?_, fun h => ?_, fun h => ?_,
    fun h => ?_, fun h => ?_⟩
  · rw [structureFor, dispatchNet8, h, reads_tie]
  · rw [structureFor, dispatchNet16, h, reads_tie]
  · rw [structureFor, dispatchNet32, h, reads_tie]
  · rw [structureFor, dispatchNet16, h]
    exact readsOnly_dispatchNet8 _ _ (readsOnly_busLines (lo := 0) (n := 8) fun i hi => by omega)
  · rw [structureFor, dispatchNet32, h]
    exact readsOnly_dispatchNet16 _ _ (readsOnly_busLines (lo := 0) (n := 16) fun i hi => by omega)
  · rw [structureFor, dispatchNet32, h]
    exact readsOnly_dispatchNet16 _ _ (readsOnly_busLines (lo := 16) (n := 16) fun i hi => by omega)

end Sys2Proof.Machine

/-! The parity tree (spec/42_parity_tree.md): the variants, the folds, the four-byte form, the size of the
canonical tree and its regroupings (R95 to R109). -/

namespace Sys2Proof.Machine

/-! ## The variants (R106) -/

/-- Settles O34: the strategy is not among what `computeW` depends on, for under either one it is `par`. -/
theorem variantsAgree : Obligations.VariantsAgree := by
  refine fun f p _ _ => ⟨fun x => ⟨?_, compute8_eq_par p x⟩, fun x => ⟨?_, compute16_eq_par p x⟩,
    fun x => ⟨?_, compute32_eq_par p x⟩⟩
  · rw [compute8_eq_par, compute8_eq_par]
  · rw [compute16_eq_par, compute16_eq_par]
  · rw [compute32_eq_par, compute32_eq_par]

/-! ## Networks of XOR gates (R109) -/

theorem popcountBelow_eq_countP {w : Nat} (v : BitVec w) (n : Nat) :
    popcountBelow v n = (List.range n).countP v.getLsbD := by
  induction n with
  | zero => rfl
  | succ n ih =>
    rw [popcountBelow_succ, ih, List.range_succ, List.countP_append, List.countP_singleton]
    cases v.getLsbD n <;> rfl

/-- The ones of the low `w` bits are the lines below `w` that carry a one. -/
theorem popcount_extractLsb'_eq_countP (xbus : Bus) (w : Nat) :
    popcount (xbus.extractLsb' 0 w) = (List.range w).countP xbus.getLsbD := by
  rw [popcount, popcountBelow_eq_countP]
  refine List.countP_congr fun i hi => ?_
  simp [List.mem_range.mp hi]

/-- A network of XOR gates counts, modulo 2, its connections to lines that carry a one. -/
theorem eval_of_isXorTree (xbus : Bus) {n : Net} (h : n.isXorTree = true) :
    n.eval xbus = BitVec.ofNat 1 (n.reads.countP xbus.getLsbD) := by
  induction n with
  | tie b => cases h
  | line i =>
    rw [eval_line, bitAt_eq_ofNat, Net.reads, List.countP_singleton]
    cases xbus.getLsbD i <;> rfl
  | xor a b iha ihb =>
    obtain ⟨ha, hb⟩ := (Bool.and_eq_true_iff ..).mp h
    rw [eval_xor, iha ha, ihb hb, Net.reads, List.countP_append, ofNat_one_add]
  | or a b _ _ => cases h

/-- Settles O43: a permutation of the connected lines does not change how many of them carry a one. The bound
on `w` is not needed: a line the bus does not have carries a zero on both sides. -/
theorem anyRegroupingIsTheSameFunction : Obligations.AnyRegroupingIsTheSameFunction := by
  intro n w xbus _ htree hperm
  rw [eval_of_isXorTree xbus htree, hperm.countP_eq, par_eq_ofNat_popcount, popcount_extractLsb'_eq_countP]

/-! ## The folds and the leaf (R95 to R97, R104) -/

theorem getLsbD_fold32 (v : BitVec 32) {n : Nat} (hn : n < 16) :
    (fold32 v).getLsbD n = (v.getLsbD (n + 16) ^^ v.getLsbD n) := by
  simp [fold32, high16, low16, hn, Nat.add_comm]

theorem getLsbD_fold16 (v : BitVec 16) {n : Nat} (hn : n < 8) :
    (fold16 v).getLsbD n = (v.getLsbD (n + 8) ^^ v.getLsbD n) := by
  simp [fold16, high8, low8, hn, Nat.add_comm]

/-- Settles O32: a fold XORs the two halves, which keeps the parity, and the last stage has one bit left. -/
theorem foldsKeepParity : Obligations.FoldsKeepParity :=
  ⟨fun v => ⟨par_fold32 v, fun _ => getLsbD_fold32 v⟩, fun v => ⟨par_fold16 v, fun _ => getLsbD_fold16 v⟩,
    fun b => ⟨leaf8_eq_par b, par_fold8 b, tree8_eq_par b⟩, par_fold4, fold2_eq_par⟩

/-! ## The four-byte form (R101) -/

/-- Two neighbouring bytes side by side are the 16 bits they are cut from. -/
theorem byteOf_append_byteOf {w : Nat} (x : BitVec w) (k : Nat) :
    byteOf x (k + 1) ++ byteOf x k = x.extractLsb' (8 * k) 16 :=
  BitVec.extractLsb'_append_extractLsb'_eq_extractLsb' rfl

theorem high16_eq_append (x : BitVec 32) : high16 x = byteOf x 3 ++ byteOf x 2 :=
  (byteOf_append_byteOf x 2).symm

theorem low16_eq_append (x : BitVec 32) : low16 x = byteOf x 1 ++ byteOf x 0 :=
  (byteOf_append_byteOf x 0).symm

theorem fold32_eq_append (x : BitVec 32) :
    fold32 x = (byteOf x 3 ^^^ byteOf x 1) ++ (byteOf x 2 ^^^ byteOf x 0) := by
  rw [fold32, high16_eq_append, low16_eq_append, BitVec.xor_append]

theorem fold16_append (a b : BitVec 8) : fold16 (a ++ b) = a ^^^ b := by
  have hhigh : high8 (a ++ b) = a := BitVec.extractLsb'_append_eq_left
  have hlow : low8 (a ++ b) = b := BitVec.extractLsb'_append_eq_right
  rw [fold16, hhigh, hlow]

theorem fourByteXor_eq_fold16_fold32 (x : BitVec 32) : fourByteXor x = fold16 (fold32 x) := by
  rw [fold32_eq_append, fold16_append, fourByteXor]
  ac_rfl

theorem compute32_of_fast {cfg : Cfg} (h : cfg.strategy = .fast) (x : BitVec 32) :
    compute32 cfg x = leaf8 (fold16 (fold32 x)) := by
  rw [compute32, h]

/-- Settles O33: two folds in a row XOR the four bytes, and XOR does not mind their order. -/
theorem fourByteFormIsTheSameByte : Obligations.FourByteFormIsTheSameByte := by
  refine fun cfg x hfast => ⟨fold32_eq_append x, fourByteXor_eq_fold16_fold32 x, ?_⟩
  rw [compute32_of_fast hfast, ← fourByteXor_eq_fold16_fold32]
  rfl

/-! ## The size of the canonical tree (R108) -/

/-- A bundle of `n` wires, each the output of `g` gates with `d` of them on the longest path. -/
structure UniformBundle (l : List Net) (n g d : Nat) : Prop where
  length_eq : l.length = n
  gates_eq : ∀ m ∈ l, m.gates = g
  depth_eq : ∀ m ∈ l, m.depth = d

variable {l : List Net} {n g d : Nat}

theorem uniformBundle_busLines (lo n : Nat) : UniformBundle (busLines lo n) n 0 0 where
  length_eq := length_busLines lo n
  gates_eq := by simp [busLines, Net.gates]
  depth_eq := by simp [busLines, Net.depth]

theorem exists_of_mem_foldNets {m : Net} (hm : m ∈ foldNets l) : ∃ a ∈ l, ∃ b ∈ l, m = a.xor b := by
  rw [foldNets, ← List.map_uncurry_zip_eq_zipWith] at hm
  obtain ⟨⟨a, b⟩, hab, rfl⟩ := List.mem_map.mp hm
  obtain ⟨ha, hb⟩ := List.of_mem_zip hab
  exact ⟨a, List.mem_of_mem_drop ha, b, List.mem_of_mem_take hb, rfl⟩

/-- A fold halves the bundle and puts one XOR gate behind two of its wires. -/
theorem UniformBundle.fold (h : UniformBundle l (2 * n) g d) :
    UniformBundle (foldNets l) n (2 * g + 1) (d + 1) where
  length_eq := by rw [length_foldNets, h.length_eq]; omega
  gates_eq m hm := by
    obtain ⟨a, ha, b, hb, rfl⟩ := exists_of_mem_foldNets hm
    rw [Net.gates, h.gates_eq a ha, h.gates_eq b hb, Nat.two_mul]
  depth_eq m hm := by
    obtain ⟨a, ha, b, hb, rfl⟩ := exists_of_mem_foldNets hm
    rw [Net.depth, h.depth_eq a ha, h.depth_eq b hb, Nat.max_self]

theorem UniformBundle.firstNet_size (h : UniformBundle l 1 g d) :
    (firstNet l).gates = g ∧ (firstNet l).depth = d := by
  obtain ⟨m, rfl⟩ := List.length_eq_one_iff.mp h.length_eq
  exact ⟨h.gates_eq m List.mem_cons_self, h.depth_eq m List.mem_cons_self⟩

/-- The tree has eight wires at its leaves and seven gates of its own, in three levels. -/
theorem UniformBundle.treeNet_size (h : UniformBundle l 8 g d) :
    (treeNet l).gates = 8 * g + 7 ∧ (treeNet l).depth = d + 3 := by
  have h1 : UniformBundle (foldNets (foldNets (foldNets l))) 1 (8 * g + 7) (d + 3) := by
    have hfolds := ((h.fold (n := 4)).fold (n := 2)).fold (n := 1)
    have hgates : 2 * (2 * (2 * g + 1) + 1) + 1 = 8 * g + 7 := by omega
    rwa [hgates] at hfolds
  exact h1.firstNet_size

theorem stageNet_of_portable {cfg : Cfg} (h : cfg.strategy = .portable) (l : List Net) :
    stageNet cfg l = treeNet l := by
  rw [stageNet, h]

/-- Settles O42: every fold doubles the gates behind a wire and adds one, and adds one level. -/
theorem sizeOfTheCanonicalTree : Obligations.SizeOfTheCanonicalTree := by
  refine fun inst hportable => ⟨fun h => ?_, fun h => ?_, fun h => ?_⟩
  · rw [structureFor, dispatchNet8, h, stageNet_of_portable hportable]
    exact (uniformBundle_busLines 0 8).treeNet_size
  · rw [structureFor, dispatchNet16, h, stageNet_of_portable hportable]
    exact ((uniformBundle_busLines 0 16).fold (n := 8)).treeNet_size
  · rw [structureFor, dispatchNet32, h, stageNet_of_portable hportable]
    exact (((uniformBundle_busLines 0 32).fold (n := 16)).fold (n := 8)).treeNet_size

end Sys2Proof.Machine

/-! Refusals: when a step refuses and for which of the two reasons, and what a refused request leaves to the
others of its run (spec/60_exceptions.md R113, R115). -/

namespace Sys2Proof.Machine

variable {inst : Instance} {r : Request}

/-! ## The width select decides whether there is an operation (R44, R115) -/

theorem decode_word_eq_invalid_iff : decode r.word = .invalid .reservedWsel ↔ r.wsel = 3#2 := by
  rw [decode_eq_invalid_iff, wselOf_word]

theorem exists_decode_word_eq_op_iff : (∃ i, decode r.word = .op i) ↔ r.wsel ≠ 3#2 := by
  rw [ne_eq, ← decode_word_eq_invalid_iff]
  cases decode r.word with
  | op i => simp
  | invalid why => cases why; simp

theorem admits_of_op {i : Instr} (h : decode r.word = .op i) : admits inst r = soundFor inst i := by
  simp [admits, h]

/-- A request that is not admitted although it has an operation is one the knowledge is not sound for (R73). -/
theorem exists_unsound_iff :
    (∃ i, decode r.word = .op i ∧ soundFor inst i = false) ↔ r.wsel ≠ 3#2 ∧ admits inst r = false := by
  rw [← exists_decode_word_eq_op_iff, ← exists_and_right]
  exact exists_congr fun _ => and_congr_right fun hop => by rw [admits_of_op hop]

/-! ## When a step completes, and when it refuses for each reason (R113) -/

theorem step_completes_iff {s : State} : (∃ t, step s = .next t) ↔ admits s.inst s.fetch.held = true := by
  rw [admits_iff]
  constructor
  · rintro ⟨t, h⟩
    obtain ⟨i, hop, hs, -⟩ := step_eq_next_iff.mp h
    exact ⟨i, hop, hs⟩
  · rintro ⟨i, hop, hs⟩
    exact ⟨_, step_eq_next_iff.mpr ⟨i, hop, hs, rfl⟩⟩

theorem step_eq_refused_reservedWsel_iff {s : State} :
    step s = .refused .reservedWsel ↔ s.fetch.held.wsel = 3#2 := by
  rw [← decode_word_eq_invalid_iff, step_eq_refused_iff]
  simp

theorem step_eq_refused_unsoundKnowledge_iff {s : State} :
    step s = .refused .unsoundKnowledge ↔ s.fetch.held.wsel ≠ 3#2 ∧ admits s.inst s.fetch.held = false := by
  rw [← exists_unsound_iff, step_eq_refused_iff]
  simp

theorem refusal_cases {s : State} {why : Refusal} (h : step s = .refused why) :
    why = .reservedWsel ∨ why = .unsoundKnowledge := by
  obtain ⟨-, hwhy⟩ | ⟨_, -, -, hwhy⟩ := step_eq_refused_iff.mp h
  · exact .inl hwhy
  · exact .inr hwhy

/-- Settles O15: a reserved code has no operation to admit, and an operation is refused only where the
knowledge is not sound for it. -/
theorem refusalReasonsAreExactlyTwo : Obligations.RefusalReasonsAreExactlyTwo := fun _ =>
  ⟨step_completes_iff, step_eq_refused_reservedWsel_iff, step_eq_refused_unsoundKnowledge_iff,
    fun _ => refusal_cases⟩

/-- Settles O16: a legal width select names an operation, and the empty knowledge is sound for it. -/
theorem emptyKnowledgeIsNeverRefused : Obligations.EmptyKnowledgeIsNeverRefused := by
  intro s hempty hlegal
  obtain ⟨i, hop⟩ := exists_decode_word_eq_op_iff.mpr hlegal
  have hsound : soundFor s.fetch.inst i = true := by
    rw [fetch_inst, show s.inst = { cfg := s.inst.cfg, k := Knowledge.empty } by rw [← hempty]]
    exact soundFor_empty s.inst.cfg i
  exact ⟨i, hop, (step_of_op hop).trans (exec_of_sound hsound)⟩

/-! ## Refusals inside a run (R113) -/

theorem isResponse_respondTo (i : Instr) : (respondTo inst i).isResponse = soundFor inst i := by
  cases h : soundFor inst i with
  | true => rw [respondTo_of_sound h, PortOutcome.isResponse]
  | false => rw [respondTo_of_unsound h, PortOutcome.isResponse]

/-- The pure step responds to exactly the requests that are admitted. -/
theorem isResponse_portStep (inst : Instance) (r : Request) :
    (portStep inst r).isResponse = admits inst r := by
  cases h : decode r.word with
  | op i => rw [portStep_of_op h, isResponse_respondTo, admits_of_op h]
  | invalid why => rw [portStep_of_invalid h, PortOutcome.isResponse, admits, h]

theorem containsRefusal_map_portStep_iff {rs : List Request} :
    containsRefusal (rs.map (portStep inst)) = true ↔ ∃ r ∈ rs, admits inst r = false := by
  simp [containsRefusal, isResponse_portStep]

/-- Settles O23: a run is the pure step request by request, so keeping its responses is keeping the requests
that are admitted. -/
theorem refusedRequestsAffectNoOther : Obligations.RefusedRequestsAffectNoOther := by
  intro s
  have hkeep : PortOutcome.isResponse ∘ portStep s.inst = admits s.inst :=
    funext (isResponse_portStep s.inst)
  constructor
  · calc s.run.filter PortOutcome.isResponse
      _ = (s.requests.filter (admits s.inst)).map (portStep s.inst) := by
        rw [run_eq_map, List.filter_map, hkeep]
      _ = State.run { s with requests := s.requests.filter (admits s.inst) } :=
        (run_eq_map { s with requests := s.requests.filter (admits s.inst) }).symm
  · rw [run_eq_map, containsRefusal_map_portStep_iff]

end Sys2Proof.Machine

/-! The ports after a step and after a run: the response belongs to the request held on the ports
(spec/70_reset_and_hazards.md R131), and a run of admitted requests takes one step per request and does not
stop (R127, R132, R133). -/

namespace Sys2Proof.Machine

/-! ## The agreement of `p` with the held request (R131) -/

theorem portsAgree_iff {s : State} : portsAgree s = true ↔
    ∀ i, decode s.held.word = .op i → soundFor s.inst i = true → s.p = parityOf i := by
  cases h : decode s.held.word with
  | op i => cases hs : soundFor s.inst i <;> simp [portsAgree, h, hs]
  | invalid why => simp [portsAgree, h]

/-- A step that completes has driven the parity of the request it presented, whatever `p` was before. -/
theorem portsAgree_of_step_next {s t : State} (h : step s = .next t) : portsAgree t = true := by
  obtain ⟨i, hop, hs, rfl⟩ := step_eq_next_iff.mp h
  refine portsAgree_iff.mpr fun j hop' _ => ?_
  obtain rfl : i = j := Decoded.op.inj (hop.symm.trans hop')
  exact dispatchFor_eq_parityOf hs

/-- A request that is refused is not admitted, so the agreement asks nothing of `p`. -/
theorem portsAgree_fetch_of_step_refused {s : State} {why : Refusal} (h : step s = .refused why) :
    portsAgree s.fetch = true := by
  refine portsAgree_iff.mpr fun i hop hs => ?_
  obtain ⟨t, hnext⟩ := step_completes_iff.mpr (admits_iff.mpr ⟨i, hop, fetch_inst s ▸ hs⟩)
  exact nomatch h.symm.trans hnext

/-- What a step that completes leaves of the instance, the waiting requests and the input ports. -/
theorem step_next_frame {s t : State} (h : step s = .next t) :
    t.inst = s.inst ∧ t.requests = s.requests.tail ∧ t.held = s.fetch.held := by
  obtain ⟨i, -, -, rfl⟩ := step_eq_next_iff.mp h
  exact ⟨fetch_inst s, fetch_requests s, respond_held _ _⟩

/-- Settles O18: a step that completes drives the parity of the request it presents, and a refused request
is not admitted. -/
theorem everyStepLeavesThePortsInAgreement : Obligations.EveryStepLeavesThePortsInAgreement :=
  ⟨fun _ _ h => ⟨portsAgree_of_step_next h, step_next_frame h⟩,
    fun _ _ => portsAgree_fetch_of_step_refused⟩

/-- Settles O19: the step from reset, with no request waiting, leads back to reset. -/
theorem portsAgreeAtReset : Obligations.PortsAgreeAtReset := by
  obtain ⟨-, -, -, -, -, -, -, hstep⟩ := resetAnswersZeroOnTheDefaultInstance
  exact portsAgree_of_step_next hstep

/-! ## Runs (R127, R132, R133) -/

/-- Settles O20: each step's outcome is the pure step's, and the run goes on with the same instance. -/
theorem runIsTheMapOfTheStep : Obligations.RunIsTheMapOfTheStep := run_eq_map

theorem launchPremise_iff {inst : Instance} {rs : List Request} :
    launchPremise inst rs = true ↔ ∀ r ∈ rs, admits inst r = true := List.all_eq_true

/-- The host's run of admitted requests stops nowhere and uses them up. It ends with the last of them on the
ports, and with the ports in agreement: each step establishes that, and a run of no steps keeps it. -/
theorem coreRun_of_admitted {rs : List Request} {s : State} (hreq : s.requests = rs)
    (hadm : ∀ r ∈ rs, admits s.inst r = true) :
    ∃ t : State, Sys2Proof.core.run rs.length s = .next t ∧ t.requests = [] ∧ t.inst = s.inst ∧
      t.held = rs.getLastD s.held ∧ (rs ≠ [] ∨ portsAgree s = true → portsAgree t = true) := by
  induction rs generalizing s with
  | nil => exact ⟨s, rfl, hreq, rfl, rfl, fun h => h.resolve_left (· rfl)⟩
  | cons r rest ih =>
    obtain ⟨hr, hrest⟩ := List.forall_mem_cons.mp hadm
    have hfetch : s.fetch.held = r := fetch_held_of_cons hreq
    obtain ⟨s', hstep⟩ := step_completes_iff.mpr (hfetch ▸ hr)
    obtain ⟨hinst', hreq', hheld'⟩ := step_next_frame hstep
    rw [hreq, List.tail_cons] at hreq'
    obtain ⟨t, hrun, hnone, hinst, hheld, hagree⟩ := ih hreq' (hinst'.symm ▸ hrest)
    refine ⟨t, (coreRun_of_next hstep).trans hrun, hnone, hinst.trans hinst', ?_, fun _ => ?_⟩
    · rw [hheld, hheld', hfetch, List.getLastD_cons]
    · exact hagree (.inr (portsAgree_of_step_next hstep))

/-- Settles O24: an admitted request completes its step, so the host's run uses every request up, and the
pure step answers each with the parity of its operand. -/
theorem admittedRunsComplete : Obligations.AdmittedRunsComplete := by
  intro s hlaunch
  have hadm := launchPremise_iff.mp hlaunch
  obtain ⟨t, hrun, hnone, hinst, hheld, hagree⟩ := coreRun_of_admitted rfl hadm
  refine ⟨t, hrun, hnone, hinst, fun r hlast => ?_, ?_⟩
  · have hheld_r : t.held = r := by rw [hheld, List.getLastD_eq_getLast?, hlast, Option.getD_some]
    have hmem : r ∈ s.requests := List.mem_of_getLast? hlast
    obtain ⟨i, hop, hs⟩ := admits_iff.mp (hadm r hmem)
    have hports : portsAgree t = true := hagree (.inl (List.ne_nil_of_mem hmem))
    exact ⟨hheld_r, i, hop, portsAgree_iff.mp hports i (hheld_r ▸ hop) (hinst ▸ hs)⟩
  · rw [run_eq_map]
    refine List.map_congr_left fun r hmem => ?_
    obtain ⟨i, hop, hs⟩ := admits_iff.mp (hadm r hmem)
    rw [portStep_of_op hop, respondTo_eq_parityOf hs]
    simp only [hop]

end Sys2Proof.Machine
